-- ==== Sys2Proof/Word.lean ====
section
/-! DEFINITION. The machine words: the 64-bit word and the 320-bit statement word of the program
store, the 32-bit register word, and binary64 numbers, the spec's `Num`. -/

namespace Sys2Proof

/-- One 64-bit word of a statement word (30_encoding.md R105). -/
abbrev Word := BitVec 64

/-- The contents of a scalar register: 32 bits of storage whatever the width `W` is (10_state.md R22). -/
abbrev RegWord := BitVec 32

/-- A statement word: 320 bits held as five 64-bit words (30_encoding.md R105). -/
structure StmtWord where
  w0 : Word
  w1 : Word
  w2 : Word
  w3 : Word
  w4 : Word
  deriving DecidableEq, Repr

/-- The spec's `Num` (00_scope.md R9): an IEEE 754 binary64 value. NaN is one value; +0 and -0 are
two. Every finite binary64 number is a whole multiple of the least subnormal, so `fin neg mag`
stands for `mag * 2^(-1074)`, negated when `neg` is true: two finite values are the same data exactly
when they are the same number with the same sign (log entry 2). -/
inductive Binary64 where
  /-- the one NaN (R9, 45_simd.md R283) -/
  | nan
  /-- an infinity -/
  | inf (neg : Bool)
  /-- a finite number: sign, and magnitude counted in units of `2^(-1074)` -/
  | fin (neg : Bool) (mag : Nat)
  deriving DecidableEq, Repr

/-- +0, the value of every cell and lane after reset (10_state.md R44). -/
abbrev Binary64.zero : Binary64 := .fin false 0

end Sys2Proof
end

