-- ==== Sys2Proof/Config.lean ====
section
/-! DEFINITION. The parameters of 00_scope.md R6, the legal bit widths, and the free values: what
93_implementation_defined.md U1 leaves open. -/

namespace Sys2Proof

/-- The OPEN parameters of 00_scope.md R6, fixed for the life of one machine. -/
structure Params where
  /-- `MEMLEN`: number of cells of data memory -/
  memLen : Nat
  /-- `PROGMAX`: capacity of the program store in statements -/
  progMax : Nat
  /-- `NLABELS`: capacity of the label table -/
  nLabels : Nat
  deriving DecidableEq, Repr

/-- The spec values of 00_scope.md R6 (92_eei_decisions.md D1, D40). -/
def Params.spec : Params := { memLen := 1000, progMax := 65536, nLabels := 65536 }

/-- The legal range of the parameters: `4 <= MEMLEN < 2^32` (00_scope.md R6); a label id has 16 bits
(30_encoding.md R109) and `PROGLEN` has 32 (10_state.md R32). -/
abbrev Params.Legal (p : Params) : Prop :=
  4 ≤ p.memLen ∧ p.memLen < 2 ^ 32 ∧ p.progMax < 2 ^ 32 ∧ p.nLabels ≤ 2 ^ 16

/-- `WIDTHS` = 8, 16, 32, the default of 00_scope.md R6. The set is a parameter by
93_implementation_defined.md U2 and 92_eei_decisions.md D2: fixing it at its default is the model's choice
(DESIGN CHOICE, log entry 20). -/
inductive Width where
  | w8
  | w16
  | w32
  deriving DecidableEq, Repr

/-- The number of bits of a width. -/
def Width.bits : Width → Nat
  | .w8 => 8
  | .w16 => 16
  | .w32 => 32

/-- `MAXLANES`, the bound of the SETMATSIZE value (00_scope.md R6, 92_eei_decisions.md D27). -/
abbrev maxLanes : Nat := 4

/-- FREE VALUE: the text of the output message for an error code, or for a breakpoint when the code
is 0. The spec does not fix it (93_implementation_defined.md U1, log entry 13). -/
opaque Config.messageText (code : Nat) : String

/-- FREE VALUE: the text of the output message for a load that is rejected because of its line `line`
(70_reset_and_hazards.md R344, 93_implementation_defined.md U1, log entry 13). -/
opaque Config.loadMessageText (line : Nat) : String

/-- FREE VALUE: the severity of the breakpoint message (93_implementation_defined.md U1, log entry 13). -/
opaque Config.breakpointSeverity : String

end Sys2Proof
end

