-- ==== Sys2Proof/Syntax.lean ====
section
/-! DEFINITION. The instructions: one constructor of `Instr` for each row of spec/opcode_table.json,
over the decoded operand descriptors of 30_encoding.md R112. -/

namespace Sys2Proof

/-- How a literal was spelled (30_encoding.md R99, R106). -/
inductive LitBase where
  | dec
  | hex
  | bin
  deriving DecidableEq, Repr

/-- A part of a memory reference (30_encoding.md R110, R112): a register number, which may be one of
8 to 15 that no register has, or a literal. -/
inductive AddrPart where
  | reg (n : BitVec 4)
  | imm (payload : Word) (base : LitBase)
  deriving DecidableEq, Repr

/-- A decoded operand descriptor (30_encoding.md R112). A literal keeps its 64-bit payload; its value
is `fl(payload)`. -/
inductive Operand where
  /-- operand absent -/
  | none
  /-- scalar register number, 0 to 15 -/
  | reg (n : BitVec 4)
  /-- literal -/
  | imm (payload : Word) (base : LitBase)
  /-- memory reference of one part, `[A]` -/
  | mem1 (a : AddrPart)
  /-- memory reference of two parts, `[A+B]` -/
  | mem2 (a b : AddrPart)
  /-- vector register number, 0 to 15 -/
  | vreg (n : BitVec 4)
  /-- label id -/
  | label (id : BitVec 16)
  /-- a token that classifies as nothing -/
  | bad
  deriving DecidableEq, Repr

/-- What an INSN statement carries beside its opcode: the number of operands it was written with and
three descriptors (30_encoding.md R108, R112). -/
structure Operands where
  nops : BitVec 4
  op0 : Operand
  op1 : Operand
  op2 : Operand
  deriving DecidableEq, Repr

/-- The instructions and statement kinds of 30_encoding.md R130, in the table's order. -/
inductive Instr where
  | add (o : Operands)
  | sub (o : Operands)
  | mul (o : Operands)
  | div (o : Operands)
  | and (o : Operands)
  | or (o : Operands)
  | xor (o : Operands)
  | inc (o : Operands)
  | dec (o : Operands)
  | not (o : Operands)
  | cmp (o : Operands)
  | mov (o : Operands)
  | load (o : Operands)
  | store (o : Operands)
  | push (o : Operands)
  | pop (o : Operands)
  | dup (o : Operands)
  | swap (o : Operands)
  | rot (o : Operands)
  | jmp (o : Operands)
  | je (o : Operands)
  | jz (o : Operands)
  | jne (o : Operands)
  | jnz (o : Operands)
  | jl (o : Operands)
  | jg (o : Operands)
  | jle (o : Operands)
  | jge (o : Operands)
  | call (o : Operands)
  | ret (o : Operands)
  | vadd (o : Operands)
  | vmul (o : Operands)
  | vdiv (o : Operands)
  | vload (o : Operands)
  | vstore (o : Operands)
  | setmatsize (o : Operands)
  /-- statement kind BLANK (40_sequencer.md R146) -/
  | blank
  /-- statement kind LABEL, with the label id of `W1[15:0]` that the engine ignores (30_encoding.md R107) -/
  | label (id : BitVec 16)
  /-- statement kind END (40_sequencer.md R147); its name in the table is END -/
  | halt
  deriving DecidableEq, Repr

end Sys2Proof
end

