-- ==== Sys2Proof/WellFormed.lean ====
section
/-! DEFINITION. Which instructions the statement word can hold (`Instr.WellFormed`), the arity table of
30_encoding.md R130, and the operand forms of R131 (`Instr.Legal`). -/

namespace Sys2Proof

/-- The short descriptor of operand 2 holds NONE, REG, VREG or BAD only (30_encoding.md R111). -/
def Operand.short : Operand → Bool
  | .none => true
  | .reg _ => true
  | .vreg _ => true
  | .bad => true
  | .imm _ _ => false
  | .mem1 _ => false
  | .mem2 _ _ => false
  | .label _ => false

/-- The operands of an instruction; a statement kind has none. -/
def Instr.operands? : Instr → Option Operands
  | .add o => some o
  | .sub o => some o
  | .mul o => some o
  | .div o => some o
  | .and o => some o
  | .or o => some o
  | .xor o => some o
  | .inc o => some o
  | .dec o => some o
  | .not o => some o
  | .cmp o => some o
  | .mov o => some o
  | .load o => some o
  | .store o => some o
  | .push o => some o
  | .pop o => some o
  | .dup o => some o
  | .swap o => some o
  | .rot o => some o
  | .jmp o => some o
  | .je o => some o
  | .jz o => some o
  | .jne o => some o
  | .jnz o => some o
  | .jl o => some o
  | .jg o => some o
  | .jle o => some o
  | .jge o => some o
  | .call o => some o
  | .ret o => some o
  | .vadd o => some o
  | .vmul o => some o
  | .vdiv o => some o
  | .vload o => some o
  | .vstore o => some o
  | .setmatsize o => some o
  | .blank => none
  | .label _ => none
  | .halt => none

/-- An instruction is well formed when a statement word can hold it: its operand 2 has a short
descriptor. Wrong operand counts and classes are well formed: they are run-time errors
(30_encoding.md R132), not encoding errors. -/
def Instr.WellFormed (i : Instr) : Bool :=
  match i.operands? with
  | some o => o.op2.short
  | none => true

/-- The required `nops` of each instruction (30_encoding.md R97, R130); a statement kind has none. -/
def Instr.arity : Instr → Nat
  | .add _ => 2
  | .sub _ => 2
  | .mul _ => 2
  | .div _ => 2
  | .and _ => 2
  | .or _ => 2
  | .xor _ => 2
  | .inc _ => 1
  | .dec _ => 1
  | .not _ => 1
  | .cmp _ => 2
  | .mov _ => 2
  | .load _ => 2
  | .store _ => 2
  | .push _ => 1
  | .pop _ => 1
  | .dup _ => 0
  | .swap _ => 0
  | .rot _ => 0
  | .jmp _ => 1
  | .je _ => 1
  | .jz _ => 1
  | .jne _ => 1
  | .jnz _ => 1
  | .jl _ => 1
  | .jg _ => 1
  | .jle _ => 1
  | .jge _ => 1
  | .call _ => 1
  | .ret _ => 0
  | .vadd _ => 3
  | .vmul _ => 3
  | .vdiv _ => 3
  | .vload _ => 2
  | .vstore _ => 2
  | .setmatsize _ => 1
  | .blank => 0
  | .label _ => 0
  | .halt => 0

/-- A register `r0` .. `r6` or `SP` (10_state.md R21). -/
def Operand.isReg : Operand → Bool
  | .reg n => decide (n.toNat < 8)
  | _ => false

/-- A register or a decimal literal (30_encoding.md R121). -/
def Operand.isRl10 : Operand → Bool
  | .reg n => decide (n.toNat < 8)
  | .imm _ .dec => true
  | _ => false

/-- A register or a literal of any base (30_encoding.md R122). -/
def Operand.isRl : Operand → Bool
  | .reg n => decide (n.toNat < 8)
  | .imm _ _ => true
  | _ => false

/-- An address part: a register or a literal of any base (30_encoding.md R125). -/
def AddrPart.ok : AddrPart → Bool
  | .reg n => decide (n.toNat < 8)
  | .imm _ _ => true

/-- A memory reference (30_encoding.md R124). -/
def Operand.isMem : Operand → Bool
  | .mem1 _ => true
  | .mem2 _ _ => true
  | _ => false

/-- A memory reference whose parts are registers or literals (30_encoding.md R124). -/
def Operand.isAddr : Operand → Bool
  | .mem1 a => a.ok
  | .mem2 a b => a.ok && b.ok
  | _ => false

/-- A vector register `v0` .. `v3` (30_encoding.md R126). -/
def Operand.isVreg : Operand → Bool
  | .vreg n => decide (n.toNat < 4)
  | _ => false

/-- A label reference (30_encoding.md R127). -/
def Operand.isLabel : Operand → Bool
  | .label _ => true
  | _ => false

/-- The operand forms each instruction accepts (30_encoding.md R131), position by position, with the
number of operands of R130. -/
def Instr.Legal (i : Instr) : Bool :=
  match i with
  | .add o | .sub o | .mul o | .div o | .and o | .or o | .xor o | .cmp o =>
    decide (o.nops.toNat = 2) && o.op0.isReg && o.op1.isRl10
  | .inc o | .dec o | .not o | .pop o => decide (o.nops.toNat = 1) && o.op0.isReg
  | .mov o =>
    decide (o.nops.toNat = 2) && (o.op0.isReg || o.op0.isAddr) && (o.op1.isRl || o.op1.isAddr)
  | .load o => decide (o.nops.toNat = 2) && o.op0.isReg && o.op1.isAddr
  | .store o => decide (o.nops.toNat = 2) && o.op0.isRl && o.op1.isAddr
  | .push o | .setmatsize o => decide (o.nops.toNat = 1) && o.op0.isRl
  | .dup o | .swap o | .rot o | .ret o => decide (o.nops.toNat = 0)
  | .jmp o | .je o | .jz o | .jne o | .jnz o | .jl o | .jg o | .jle o | .jge o | .call o =>
    decide (o.nops.toNat = 1) && o.op0.isLabel
  | .vadd o | .vmul o | .vdiv o =>
    decide (o.nops.toNat = 3) && o.op0.isVreg && o.op1.isVreg && o.op2.isVreg
  | .vload o | .vstore o => decide (o.nops.toNat = 2) && o.op0.isVreg && o.op1.isAddr
  | .blank | .label _ | .halt => true

end Sys2Proof
end

