-- ==== Sys2Proof/Decode.lean ====
section
/-! DEFINITION. Level W of 30_encoding.md part B: the decoder, total on every statement word, and the
encoder written from the same table of fields (R106). -/

namespace Sys2Proof

/-- Why a statement word is no instruction: its `opc` is not in the opcode map (30_encoding.md R132).
Executing it raises UnknownInstruction. -/
inductive Reject where
  | unknownInstruction (opc : BitVec 8)
  deriving DecidableEq, Repr

/-- The fields of one of the operands 0 and 1 in the header and its two payloads (30_encoding.md R106). -/
structure OperandFields where
  cls : BitVec 4
  ka : BitVec 1
  ba : BitVec 2
  kb : BitVec 1
  bb : BitVec 2
  a : Word
  b : Word
  deriving DecidableEq, Repr

/-- A base field: 3 is reserved (30_encoding.md R106, R110). -/
def decodeBase (b : BitVec 2) : Option LitBase :=
  match b.toNat with
  | 0 => some .dec
  | 1 => some .hex
  | 2 => some .bin
  | _ => none

/-- A part (30_encoding.md R110): kind 0 is a register number in payload bits 3:0, kind 1 a literal,
for which a base of 3 is refused. -/
def decodePart (kind : BitVec 1) (base : BitVec 2) (payload : Word) : Option AddrPart :=
  if kind = 0#1 then some (.reg (payload.extractLsb' 0 4))
  else
    match decodeBase base with
    | some b => some (.imm payload b)
    | none => none

/-- The class table of 30_encoding.md R109. Classes 7 to 14 and a reserved literal base are BAD. The
`ka` bit and the base bits of a class that does not use them are ignored (log entry 7). -/
def decodeOperand (f : OperandFields) : Operand :=
  match f.cls.toNat with
  | 0 => .none
  | 1 => .reg (f.a.extractLsb' 0 4)
  | 2 =>
    match decodeBase f.ba with
    | some b => .imm f.a b
    | none => .bad
  | 3 =>
    match decodePart f.ka f.ba f.a with
    | some p => .mem1 p
    | none => .bad
  | 4 =>
    match decodePart f.ka f.ba f.a, decodePart f.kb f.bb f.b with
    | some p, some q => .mem2 p q
    | _, _ => .bad
  | 5 => .vreg (f.a.extractLsb' 0 4)
  | 6 => .label (f.a.extractLsb' 0 16)
  | _ => .bad

/-- The short descriptor of operand 2 (30_encoding.md R111). -/
def decodeShort (cls n : BitVec 4) : Operand :=
  match cls.toNat with
  | 0 => .none
  | 1 => .reg n
  | 5 => .vreg n
  | _ => .bad

/-- `kind`, `W0[1:0]` (30_encoding.md R106). -/
def StmtWord.kind (w : StmtWord) : BitVec 2 := w.w0.extractLsb' 0 2

/-- `opc`, `W0[9:2]` (30_encoding.md R106). -/
def StmtWord.opc (w : StmtWord) : BitVec 8 := w.w0.extractLsb' 2 8

/-- `nops` and the three descriptors (30_encoding.md R106, R110, R111). -/
def StmtWord.operands (w : StmtWord) : Operands where
  nops := w.w0.extractLsb' 10 4
  op0 := decodeOperand
    { cls := w.w0.extractLsb' 14 4, ka := w.w0.extractLsb' 18 1, ba := w.w0.extractLsb' 19 2,
      kb := w.w0.extractLsb' 21 1, bb := w.w0.extractLsb' 22 2, a := w.w1, b := w.w2 }
  op1 := decodeOperand
    { cls := w.w0.extractLsb' 24 4, ka := w.w0.extractLsb' 28 1, ba := w.w0.extractLsb' 29 2,
      kb := w.w0.extractLsb' 31 1, bb := w.w0.extractLsb' 32 2, a := w.w3, b := w.w4 }
  op2 := decodeShort (w.w0.extractLsb' 34 4) (w.w0.extractLsb' 38 4)

/-- The opcode map (30_encoding.md R130): the instruction an opcode number selects. -/
def instrOfOpc (opc : BitVec 8) (o : Operands) : Option Instr :=
  match opc.toNat with
  | 0x01 => some (.add o)
  | 0x02 => some (.sub o)
  | 0x03 => some (.mul o)
  | 0x04 => some (.div o)
  | 0x05 => some (.and o)
  | 0x06 => some (.or o)
  | 0x07 => some (.xor o)
  | 0x08 => some (.inc o)
  | 0x09 => some (.dec o)
  | 0x0A => some (.not o)
  | 0x0B => some (.cmp o)
  | 0x10 => some (.mov o)
  | 0x11 => some (.load o)
  | 0x12 => some (.store o)
  | 0x20 => some (.push o)
  | 0x21 => some (.pop o)
  | 0x22 => some (.dup o)
  | 0x23 => some (.swap o)
  | 0x24 => some (.rot o)
  | 0x30 => some (.jmp o)
  | 0x31 => some (.je o)
  | 0x32 => some (.jz o)
  | 0x33 => some (.jne o)
  | 0x34 => some (.jnz o)
  | 0x35 => some (.jl o)
  | 0x36 => some (.jg o)
  | 0x37 => some (.jle o)
  | 0x38 => some (.jge o)
  | 0x39 => some (.call o)
  | 0x3A => some (.ret o)
  | 0x40 => some (.vadd o)
  | 0x41 => some (.vmul o)
  | 0x42 => some (.vdiv o)
  | 0x43 => some (.vload o)
  | 0x44 => some (.vstore o)
  | 0x50 => some (.setmatsize o)
  | _ => none

/-- Decoding a statement word: the kind (30_encoding.md R107), then for an INSN the opcode and the
descriptors (R108 to R112). The reserved bits 63:42 of the header are ignored (R106). -/
def decode (w : StmtWord) : Except Reject Instr :=
  match w.kind.toNat with
  | 0 => .ok .blank
  | 1 => .ok (.label (w.w1.extractLsb' 0 16))
  | 2 => .ok .halt
  | _ =>
    match instrOfOpc w.opc w.operands with
    | some i => .ok i
    | none => .error (.unknownInstruction w.opc)

/-- The base field of a literal (30_encoding.md R106). -/
def LitBase.bits : LitBase → BitVec 2
  | .dec => 0
  | .hex => 1
  | .bin => 2

/-- The kind bit of a part (30_encoding.md R106). -/
def AddrPart.kindBit : AddrPart → BitVec 1
  | .reg _ => 0
  | .imm _ _ => 1

/-- The base bits of a part, 0 for a register. -/
def AddrPart.baseBits : AddrPart → BitVec 2
  | .reg _ => 0
  | .imm _ b => b.bits

/-- The payload of a part (30_encoding.md R110). -/
def AddrPart.payload : AddrPart → Word
  | .reg n => n.setWidth 64
  | .imm p _ => p

/-- The fields of a descriptor in positions 0 and 1 (30_encoding.md R109, R110); what a class does not
use is written 0. -/
def Operand.fields : Operand → OperandFields
  | .none => ⟨0, 0, 0, 0, 0, 0, 0⟩
  | .reg n => ⟨1, 0, 0, 0, 0, n.setWidth 64, 0⟩
  | .imm p b => ⟨2, 1, b.bits, 0, 0, p, 0⟩
  | .mem1 a => ⟨3, a.kindBit, a.baseBits, 0, 0, a.payload, 0⟩
  | .mem2 a b => ⟨4, a.kindBit, a.baseBits, b.kindBit, b.baseBits, a.payload, b.payload⟩
  | .vreg n => ⟨5, 0, 0, 0, 0, n.setWidth 64, 0⟩
  | .label id => ⟨6, 0, 0, 0, 0, id.setWidth 64, 0⟩
  | .bad => ⟨15, 0, 0, 0, 0, 0, 0⟩

/-- The class and the number of the short descriptor of operand 2 (30_encoding.md R111); a form it
cannot hold is written as BAD, as the loader does (R104). -/
def Operand.shortFields : Operand → BitVec 4 × BitVec 4
  | .none => (0, 0)
  | .reg n => (1, n)
  | .vreg n => (5, n)
  | .imm _ _ => (15, 0)
  | .mem1 _ => (15, 0)
  | .mem2 _ _ => (15, 0)
  | .label _ => (15, 0)
  | .bad => (15, 0)

/-- The header `W0` of an INSN statement, from bit 63 down to bit 0 (30_encoding.md R106). -/
def insnHeader (opc : BitVec 8) (o : Operands) : Word :=
  let f := o.op0.fields
  let g := o.op1.fields
  let h := o.op2.shortFields
  0#22 ++ h.2 ++ h.1 ++ g.bb ++ g.kb ++ g.ba ++ g.ka ++ g.cls ++ f.bb ++ f.kb ++ f.ba ++ f.ka
    ++ f.cls ++ o.nops ++ opc ++ 3#2

/-- The statement word of an INSN statement (30_encoding.md R105, R106). -/
def encodeInsn (opc : BitVec 8) (o : Operands) : StmtWord where
  w0 := insnHeader opc o
  w1 := o.op0.fields.a
  w2 := o.op0.fields.b
  w3 := o.op1.fields.a
  w4 := o.op1.fields.b

/-- The statement word of an instruction (30_encoding.md part B). -/
def encode (i : Instr) : StmtWord :=
  match i with
  | .add o => encodeInsn 0x01 o
  | .sub o => encodeInsn 0x02 o
  | .mul o => encodeInsn 0x03 o
  | .div o => encodeInsn 0x04 o
  | .and o => encodeInsn 0x05 o
  | .or o => encodeInsn 0x06 o
  | .xor o => encodeInsn 0x07 o
  | .inc o => encodeInsn 0x08 o
  | .dec o => encodeInsn 0x09 o
  | .not o => encodeInsn 0x0A o
  | .cmp o => encodeInsn 0x0B o
  | .mov o => encodeInsn 0x10 o
  | .load o => encodeInsn 0x11 o
  | .store o => encodeInsn 0x12 o
  | .push o => encodeInsn 0x20 o
  | .pop o => encodeInsn 0x21 o
  | .dup o => encodeInsn 0x22 o
  | .swap o => encodeInsn 0x23 o
  | .rot o => encodeInsn 0x24 o
  | .jmp o => encodeInsn 0x30 o
  | .je o => encodeInsn 0x31 o
  | .jz o => encodeInsn 0x32 o
  | .jne o => encodeInsn 0x33 o
  | .jnz o => encodeInsn 0x34 o
  | .jl o => encodeInsn 0x35 o
  | .jg o => encodeInsn 0x36 o
  | .jle o => encodeInsn 0x37 o
  | .jge o => encodeInsn 0x38 o
  | .call o => encodeInsn 0x39 o
  | .ret o => encodeInsn 0x3A o
  | .vadd o => encodeInsn 0x40 o
  | .vmul o => encodeInsn 0x41 o
  | .vdiv o => encodeInsn 0x42 o
  | .vload o => encodeInsn 0x43 o
  | .vstore o => encodeInsn 0x44 o
  | .setmatsize o => encodeInsn 0x50 o
  | .blank => ⟨0, 0, 0, 0, 0⟩
  | .label id => ⟨1, id.setWidth 64, 0, 0, 0⟩
  | .halt => ⟨2, 0, 0, 0, 0⟩

/-- The statement word whose bits, counted from bit 0 of `W0`, are those of `w`: `W0` first, then
`W1` to `W4` (30_encoding.md R106). -/
def StmtWord.ofNat (w : Nat) : StmtWord where
  w0 := BitVec.ofNat 64 w
  w1 := BitVec.ofNat 64 (w / 2 ^ 64)
  w2 := BitVec.ofNat 64 (w / 2 ^ 128)
  w3 := BitVec.ofNat 64 (w / 2 ^ 192)
  w4 := BitVec.ofNat 64 (w / 2 ^ 256)

/-- The statement word of an opcode-table word of `nbits` bits: every bit above them is 0. `2 ^ nbits` is
written with exponents that Lean evaluates without raising a limit. -/
def tableWord (nbits w : Nat) : StmtWord :=
  StmtWord.ofNat (w % (2 ^ (nbits / 2) * 2 ^ (nbits - nbits / 2)))

/-- The instruction the decoder reads from an opcode-table word. -/
def decodeTableWord (nbits w : Nat) : Option Instr :=
  match decode (tableWord nbits w) with
  | .ok i => some i
  | .error _ => none

end Sys2Proof
end

