-- ==== Sys2Proof/Machine/Num.lean ====
section
/-! DEFINITION. The arithmetic of `Num` (00_scope.md R9): rounding `fl`, the IEEE 754 operations of
45_simd.md R271, comparisons, and `mask_W` (00_scope.md R10). -/

namespace Sys2Proof

/-- The number 1 counted in units of `2^(-1074)`, that is `2^1074`, written with exponents that Lean
evaluates without raising a limit. -/
def Binary64.unit : Nat := (2 ^ 179) ^ 6

/-- The least magnitude above every finite `Num`, `2^1024`, in units of `2^(-1074)`. -/
def Binary64.limit : Nat := Binary64.unit * (2 ^ 256) ^ 4

/-- `num / den` rounded to a 53-bit significand by round-to-nearest, ties-to-even, both counted in
units of `2^(-1074)` (00_scope.md R9). The spacing of the numbers around a quotient of binary length
`n` is `2^(n - 53)`, and 1 unit for the subnormals and the least normals. -/
def roundQuotient (num den : Nat) : Nat :=
  let ulp := 2 ^ ((num / den).log2 - 52)
  let d := den * ulp
  let k := num / d
  let rem := num % d
  (if 2 * rem < d then k else if d < 2 * rem then k + 1 else k + k % 2) * ulp

namespace Binary64

/-- `fl` of the real number `± num / den` units (00_scope.md R9): overflow gives an infinity. -/
def fl (neg : Bool) (num den : Nat) : Binary64 :=
  let m := roundQuotient num den
  if m < limit then .fin neg m else .inf neg

/-- `fl` of an integer. -/
def ofInt (k : Int) : Binary64 := fl (decide (k < 0)) (unit * k.natAbs) 1

/-- `fl` of a natural number: the value of a literal (30_encoding.md R112) or of a register. -/
def ofNat (k : Nat) : Binary64 := fl false (unit * k) 1

/-- NaN is the one value that is not numeric (20_memory.md R64). -/
def isNaN : Binary64 → Bool
  | .nan => true
  | .inf _ => false
  | .fin _ _ => false

/-- `v == 0`: +0 and -0 both count (45_simd.md R274). -/
def isZero : Binary64 → Bool
  | .nan => false
  | .inf _ => false
  | .fin _ m => decide (m = 0)

/-- A finite value as a signed count of units; 0 for the others. -/
def units : Binary64 → Int
  | .nan => 0
  | .inf _ => 0
  | .fin neg m => if neg then -(m : Int) else m

/-- `a == b` as numbers: the zeros are equal, NaN equals nothing (00_scope.md R9). -/
def eqNum (a b : Binary64) : Bool :=
  match a, b with
  | .nan, _ => false
  | _, .nan => false
  | .inf s, .inf t => s == t
  | .inf _, .fin _ _ => false
  | .fin _ _, .inf _ => false
  | .fin s m, .fin t n => decide ((fin s m).units = (fin t n).units)

/-- `a < b` as numbers; false when either is NaN. -/
def ltNum (a b : Binary64) : Bool :=
  match a, b with
  | .nan, _ => false
  | _, .nan => false
  | .inf s, .inf t => s && !t
  | .inf s, .fin _ _ => s
  | .fin _ _, .inf t => !t
  | .fin s m, .fin t n => decide ((fin s m).units < (fin t n).units)

/-- `|v| > k` for an integer `k` (41_arithmetic.md R171). -/
def absAbove (v : Binary64) (k : Nat) : Bool :=
  match v with
  | .nan => false
  | .inf _ => true
  | .fin _ m => decide (unit * k < m)

/-- Negation. -/
def neg : Binary64 → Binary64
  | .nan => .nan
  | .inf s => .inf !s
  | .fin s m => .fin (!s) m

/-- IEEE 754 addition (45_simd.md R271). Infinities of opposite sign, and the sign of an exact zero
sum, are not in the table of R271 and follow IEEE 754 (log entry 3). -/
def add (a b : Binary64) : Binary64 :=
  match a, b with
  | .nan, _ => .nan
  | _, .nan => .nan
  | .inf s, .inf t => if s = t then .inf s else .nan
  | .inf s, .fin _ _ => .inf s
  | .fin _ _, .inf t => .inf t
  | .fin s m, .fin t n =>
    let r := (fin s m).units + (fin t n).units
    if r = 0 then .fin (s && t) 0 else fl (decide (r < 0)) r.natAbs 1

/-- IEEE 754 subtraction: the addition of the negated operand. -/
def sub (a b : Binary64) : Binary64 := add a b.neg

/-- IEEE 754 multiplication (45_simd.md R271); the sign is the exclusive or of the signs. -/
def mul (a b : Binary64) : Binary64 :=
  match a, b with
  | .nan, _ => .nan
  | _, .nan => .nan
  | .inf s, .inf t => .inf (s != t)
  | .inf s, .fin t n => if n = 0 then .nan else .inf (s != t)
  | .fin s m, .inf t => if m = 0 then .nan else .inf (s != t)
  | .fin s m, .fin t n => fl (s != t) (m * n) unit

/-- IEEE 754 division (45_simd.md R271). DIV and VDIV never divide by a zero (R274); the value given
here for it is IEEE 754's (log entry 3). -/
def div (a b : Binary64) : Binary64 :=
  match a, b with
  | .nan, _ => .nan
  | _, .nan => .nan
  | .inf _, .inf _ => .nan
  | .inf s, .fin t _ => .inf (s != t)
  | .fin s _, .inf t => .fin (s != t) 0
  | .fin s m, .fin t n =>
    if n = 0 then (if m = 0 then .nan else .inf (s != t)) else fl (s != t) (unit * m) n

/-- `trunc(v)` of a finite value (00_scope.md R9); 0 for the others. -/
def trunc : Binary64 → Int
  | .nan => 0
  | .inf _ => 0
  | .fin s m => if s then -((m / unit : Nat) : Int) else ((m / unit : Nat) : Int)

/-- The natural number that `v` is, when `is_int(v)` (00_scope.md R9) and `0 <= v`. -/
def toNat? : Binary64 → Option Nat
  | .nan => none
  | .inf _ => none
  | .fin s m =>
    if m = 0 then some 0
    else if s then none
    else if m % unit = 0 then some (m / unit) else none

end Binary64

/-- `MAXVALUE = 2^W - 1` (00_scope.md R7, 10_state.md R32). -/
def Width.maxValue (w : Width) : Nat := 2 ^ w.bits - 1

/-- `mask_W` (00_scope.md R10): NaN and the infinities give 0 (their `trunc` is 0 here), a finite value
is truncated and reduced modulo `2^W`. -/
def maskNum (w : Width) (v : Binary64) : Nat := (v.trunc % ((2 ^ w.bits : Nat) : Int)).toNat

/-- The value of a literal: `fl(payload)` (30_encoding.md R112, R113). -/
def literalValue (payload : Word) : Binary64 := Binary64.ofNat payload.toNat

/-- The value of a literal as the integer it is (30_encoding.md R124: an address is an exact integer). -/
def literalNat (payload : Word) : Nat := (literalValue payload).trunc.toNat

end Sys2Proof
end

