-- ==== Sys2Proof/Machine/State.lean ====
section
/-! DEFINITION. The state of the machine (10_state.md R20), the errors of 60_exceptions.md R301, and the
values after reset (10_state.md R44, 70_reset_and_hazards.md R341). -/

namespace Sys2Proof.Machine

/-- The operand-addressable scalar registers (10_state.md R21). -/
inductive Reg where
  | r0
  | r1
  | r2
  | r3
  | r4
  | r5
  | r6
  | sp
  deriving DecidableEq, Repr

/-- The scalar register file (10_state.md R21, R22). -/
structure RegFile where
  r0 : RegWord
  r1 : RegWord
  r2 : RegWord
  r3 : RegWord
  r4 : RegWord
  r5 : RegWord
  r6 : RegWord
  sp : RegWord
  deriving DecidableEq, Repr

/-- The vector registers (10_state.md R38). -/
inductive VReg where
  | v0
  | v1
  | v2
  | v3
  deriving DecidableEq, Repr

/-- The four lanes of a vector register (10_state.md R38). -/
structure Lanes where
  l0 : Binary64
  l1 : Binary64
  l2 : Binary64
  l3 : Binary64
  deriving DecidableEq, Repr

/-- The vector register file (10_state.md R38). -/
structure VecFile where
  v0 : Lanes
  v1 : Lanes
  v2 : Lanes
  v3 : Lanes
  deriving DecidableEq, Repr

/-- `run_state` (10_state.md R35, 40_sequencer.md R141). -/
inductive RunState where
  | loaded
  | running
  | paused
  | stoppedSuccess
  | stoppedError
  deriving DecidableEq, Repr

/-- The eleven errors, in the order of their codes 1 to 11 (60_exceptions.md R300, R301). -/
inductive Err where
  | invalidRegister
  | invalidOperand
  | invalidAddress
  | invalidMemoryValue
  | stackOverflow
  | stackUnderflow
  | divisionByZero
  | unknownInstruction
  | unknownLabel
  | invalidReturnAddress
  | arityMismatch
  deriving DecidableEq, Repr

/-- No step of this machine faults: an error is a NEXT state with `run_state` StoppedError
(60_exceptions.md R320), and an address outside memory raises InvalidAddress (20_memory.md R62). So
there is no reason to fault, and the type says it (log entry 6; safe). -/
inductive Fault where
  deriving DecidableEq, Repr

/-- Why the model has no answer. -/
inductive Refusal where
  /-- an instruction that has no meaning yet; raised by no arm of this model; safe -/
  | notModelled (mnemonic : String)
  /-- raised by the host's load only, for a text of more than `PROGMAX` lines: outside the spec
  (93_implementation_defined.md U6, log entry 12); safe -/
  | programTooLong (lines : Nat)
  /-- raised by the host's load only, for a text of more than `NLABELS` distinct label names: outside
  the spec (93_implementation_defined.md U6, log entry 12); safe -/
  | tooManyLabels (labels : Nat)
  deriving DecidableEq, Repr

/-- Data memory (10_state.md R39, 20_memory.md R60): the cells that do not hold +0, in strictly rising
order of address. A cell that is not listed holds +0, its value after reset (R44; log entry 1). -/
abbrev Memory := List (Nat × Binary64)

/-- The whole state of one machine (10_state.md R20). -/
structure State where
  /-- the MODEL's own field: the parameters of 00_scope.md R6, which no step changes (log entry 4) -/
  params : Params
  /-- `x[0..7]`: r0 to r6 and SP (R21) -/
  x : RegFile
  /-- the cursor (R26) -/
  pc : Nat
  /-- zero/equal, `true` for 1 (R28) -/
  FLAGS : Bool
  /-- negative/less (R29) -/
  FLAG : Bool
  /-- `true` for 1 (R30) -/
  OVERFLOW : Bool
  /-- `v[0..3][0..3]` (R38) -/
  v : VecFile
  /-- `mem[0 .. MEMLEN-1]` (R39) -/
  mem : Memory
  /-- `prog[0 .. PROGLEN-1]` (R40) -/
  prog : List StmtWord
  /-- the valid entries (id, target) of the label table, in strictly rising order of id (R41) -/
  labels : List (Nat × Nat)
  /-- the bit width (R32, R33) -/
  W : Width
  /-- the advisory lane count (R34) -/
  MATSIZE : Nat
  /-- the dispatch state machine (R35) -/
  runState : RunState
  /-- `err_code`: `none` is code 0 (R36) -/
  errCode : Option Err
  /-- `err_line`: the 1-based line of the failing statement, 0 when none (R36) -/
  errLine : Nat
  /-- hidden: the next step does not consult the hook (R42) -/
  bpSkip : Bool
  /-- hidden: a `stop()` not yet consumed (R42) -/
  stopReq : Bool
  /-- the MODEL's own field: the indices at which the host's `shouldPause` hook answers true (log
  entry 5) -/
  breakpoints : List Nat
  deriving DecidableEq, Repr

/-- Four lanes of +0. -/
def Lanes.zero : Lanes := ⟨.zero, .zero, .zero, .zero⟩

/-- The state after `reset()` of a machine with parameters `p` and no breakpoint (R44,
70_reset_and_hazards.md R341). -/
def State.resetOf (p : Params) : State where
  params := p
  x := ⟨0, 0, 0, 0, 0, 0, 0, BitVec.ofNat 32 (p.memLen - 1)⟩
  pc := 0
  FLAGS := false
  FLAG := false
  OVERFLOW := false
  v := ⟨Lanes.zero, Lanes.zero, Lanes.zero, Lanes.zero⟩
  mem := []
  prog := []
  labels := []
  W := .w32
  MATSIZE := maxLanes
  runState := .loaded
  errCode := none
  errLine := 0
  bpSkip := false
  stopReq := false
  breakpoints := []

/-- The machine right after reset (R44), with the spec values of the parameters (00_scope.md R6). -/
def State.reset : State := State.resetOf Params.spec

end Sys2Proof.Machine
end

