-- ==== Sys2Proof/Machine/Ops.lean ====
section
/-! DEFINITION. The named operations over registers and memory, the advance of the cursor, and taking an
error (60_exceptions.md R320), which has no return (R322): an error ends the run. -/

namespace Sys2Proof.Machine

/-- What a meaning answers. -/
abbrev Result := Host.Outcome State Fault Refusal

/-! ### Scalar registers -/

/-- Reading a scalar register. -/
def RegFile.get (f : RegFile) : Reg → RegWord
  | .r0 => f.r0
  | .r1 => f.r1
  | .r2 => f.r2
  | .r3 => f.r3
  | .r4 => f.r4
  | .r5 => f.r5
  | .r6 => f.r6
  | .sp => f.sp

/-- Writing a scalar register. -/
def RegFile.set (f : RegFile) (r : Reg) (v : RegWord) : RegFile :=
  match r with
  | .r0 => { f with r0 := v }
  | .r1 => { f with r1 := v }
  | .r2 => { f with r2 := v }
  | .r3 => { f with r3 := v }
  | .r4 => { f with r4 := v }
  | .r5 => { f with r5 := v }
  | .r6 => { f with r6 := v }
  | .sp => { f with sp := v }

/-- The register a number names: 8 to 15 name none (10_state.md R21). -/
def regOfNumber (n : BitVec 4) : Option Reg :=
  match n.toNat with
  | 0 => some .r0
  | 1 => some .r1
  | 2 => some .r2
  | 3 => some .r3
  | 4 => some .r4
  | 5 => some .r5
  | 6 => some .r6
  | 7 => some .sp
  | _ => none

/-- `x[i]` as the `Nat` it holds (00_scope.md R11). -/
def State.reg (s : State) (r : Reg) : Nat := (s.x.get r).toNat

/-- Storing 32 bits in a register. -/
def State.setReg (s : State) (r : Reg) (v : RegWord) : State := { s with x := s.x.set r v }

/-- `x[i] <- v`: an explicit register write stores `mask_W(v)` (10_state.md R23). -/
def State.writeReg (s : State) (r : Reg) (v : Binary64) : State :=
  s.setReg r (BitVec.ofNat 32 (maskNum s.W v))

/-- SP as the stack unit reads it. -/
def State.sp (s : State) : Nat := s.reg .sp

/-- `SP <- n`, not masked (10_state.md R25). -/
def State.setSP (s : State) (n : Nat) : State := s.setReg .sp (BitVec.ofNat 32 n)

/-! ### Vector registers -/

/-- Reading a vector register. -/
def VecFile.get (f : VecFile) : VReg → Lanes
  | .v0 => f.v0
  | .v1 => f.v1
  | .v2 => f.v2
  | .v3 => f.v3

/-- Writing a vector register, all four lanes (45_simd.md R270). -/
def VecFile.set (f : VecFile) (r : VReg) (l : Lanes) : VecFile :=
  match r with
  | .v0 => { f with v0 := l }
  | .v1 => { f with v1 := l }
  | .v2 => { f with v2 := l }
  | .v3 => { f with v3 := l }

/-- The vector register a number names: 4 to 15 name none (30_encoding.md R126). -/
def vregOfNumber (n : BitVec 4) : Option VReg :=
  match n.toNat with
  | 0 => some .v0
  | 1 => some .v1
  | 2 => some .v2
  | 3 => some .v3
  | _ => none

/-- `v[i]` (00_scope.md R11). -/
def State.vec (s : State) (r : VReg) : Lanes := s.v.get r

/-- `v[i] <- (a, b, c, d)` (00_scope.md R11). -/
def State.setVec (s : State) (r : VReg) (l : Lanes) : State := { s with v := s.v.set r l }

/-- A lane-wise operation: lane k of the result depends only on lane k of the sources (45_simd.md R270). -/
def Lanes.map2 (f : Binary64 → Binary64 → Binary64) (a b : Lanes) : Lanes :=
  ⟨f a.l0 b.l0, f a.l1 b.l1, f a.l2 b.l2, f a.l3 b.l3⟩

/-- Whether a lane satisfies a test. -/
def Lanes.any (p : Binary64 → Bool) (a : Lanes) : Bool := p a.l0 || p a.l1 || p a.l2 || p a.l3

/-! ### Memory -/

/-- What an address holds: the listed value, or +0, the reset content (10_state.md R44). -/
def Memory.read : Memory → Nat → Binary64
  | [], _ => .zero
  | (k, u) :: m, a => if k = a then u else Memory.read m a

/-- Storing a value; writing +0 removes the entry, so that equal memories are equal lists. -/
def Memory.write : Memory → Nat → Binary64 → Memory
  | [], a, v => if v = .zero then [] else [(a, v)]
  | (k, u) :: m, a, v =>
    if a < k then (if v = .zero then (k, u) :: m else (a, v) :: (k, u) :: m)
    else if a = k then (if v = .zero then m else (a, v) :: m)
    else (k, u) :: Memory.write m a v

/-- The canonical form: addresses strictly rising, no entry equal to what an unlisted address reads
as. -/
abbrev Memory.wf (m : Memory) : Prop :=
  List.Pairwise (fun p q : Nat × Binary64 => p.1 < q.1) m ∧ ∀ p ∈ m, p.2 ≠ Binary64.zero

/-- `mem[a]`. -/
def State.cell (s : State) (a : Nat) : Binary64 := Memory.read s.mem a

/-- `mem[a] <- v`, unmasked (20_memory.md R63). -/
def State.putCell (s : State) (a : Nat) (v : Binary64) : State :=
  { s with mem := Memory.write s.mem a v }

/-- `MEMLEN`. -/
def State.memLen (s : State) : Nat := s.params.memLen

/-- A check of a rule: `raise e` unless `c` holds. -/
def require (c : Bool) (e : Err) : Except Err Unit := if c then .ok () else .error e

/-- `MemRead(a, 1)` (00_scope.md R11, 20_memory.md R62). -/
def State.memRead (s : State) (a : Nat) : Except Err Binary64 :=
  if a < s.memLen then .ok (s.cell a) else .error .invalidAddress

/-- `MemRead(a, 4)`: the range check covers all four cells (20_memory.md R62). -/
def State.memRead4 (s : State) (a : Nat) : Except Err Lanes :=
  if a + 3 < s.memLen then .ok ⟨s.cell a, s.cell (a + 1), s.cell (a + 2), s.cell (a + 3)⟩
  else .error .invalidAddress

/-- `MemWrite(a, 1, v)` (00_scope.md R11, 20_memory.md R62). -/
def State.memWrite (s : State) (a : Nat) (v : Binary64) : Except Err State :=
  if a < s.memLen then .ok (s.putCell a v) else .error .invalidAddress

/-- `MemWrite(a, 4, lanes)`: the range check is made before any cell is written (20_memory.md R62). -/
def State.memWrite4 (s : State) (a : Nat) (l : Lanes) : Except Err State :=
  if a + 3 < s.memLen then
    .ok ((((s.putCell a l.l0).putCell (a + 1) l.l1).putCell (a + 2) l.l2).putCell (a + 3) l.l3)
  else .error .invalidAddress

/-! ### The cursor, the program store and the label table -/

/-- `pc <- n`. -/
def State.setPc (s : State) (n : Nat) : State := { s with pc := n }

/-- The advance of the sequencer: `pc <- pc + 1` (40_sequencer.md R150). -/
def State.advance (s : State) : State := s.setPc (s.pc + 1)

/-- `PROGLEN`: the number of statements in the program store (10_state.md R37). -/
def State.progLen (s : State) : Nat := s.prog.length

/-- The target of a label id in a table: `none` when the entry is not valid (10_state.md R41). -/
def labelTarget : List (Nat × Nat) → Nat → Option Nat
  | [], _ => none
  | (k, t) :: l, id => if k = id then some t else labelTarget l id

/-! ### The other registers -/

/-- Writing the three flags. -/
def State.setFlags (s : State) (z n o : Bool) : State := { s with FLAGS := z, FLAG := n, OVERFLOW := o }

/-- `MATSIZE <- n` (46_config.md R291). -/
def State.setMatSize (s : State) (n : Nat) : State := { s with MATSIZE := n }

/-- `run_state <- r`. -/
def State.setRunState (s : State) (r : RunState) : State := { s with runState := r }

/-! ### Errors -/

/-- The code numbers of 60_exceptions.md R301. -/
def Err.code : Err → Nat
  | .invalidRegister => 1
  | .invalidOperand => 2
  | .invalidAddress => 3
  | .invalidMemoryValue => 4
  | .stackOverflow => 5
  | .stackUnderflow => 6
  | .divisionByZero => 7
  | .unknownInstruction => 8
  | .unknownLabel => 9
  | .invalidReturnAddress => 10
  | .arityMismatch => 11

/-- The register `err_code` as a number, 0 when there is no error (10_state.md R36). -/
def State.errNumber (s : State) : Nat :=
  match s.errCode with
  | none => 0
  | some e => e.code

/-- `enter_error(E)` (60_exceptions.md R320): the run stops, the code and the 1-based line are recorded,
and nothing else changes. -/
def State.enterError (s : State) (e : Err) : State :=
  { s with runState := .stoppedError, errCode := some e, errLine := s.pc + 1 }

/-- An instruction commits its whole effect or, on an error, none of it (00_scope.md R11, 60_exceptions.md
R321). -/
def attempt (s : State) (r : Except Err State) : Result :=
  match r with
  | .ok t => .next t
  | .error e => .next (s.enterError e)

end Sys2Proof.Machine
end

