-- ==== Sys2Proof/Machine/Flags.lean ====
section
/-! DEFINITION. The flag computations (41_arithmetic.md R171, R182) and the conditions that read the flags
(44_control_flow.md R241). -/

namespace Sys2Proof.Machine

/-- `update_flags(r)`, from the unmasked result (41_arithmetic.md R171). -/
def State.updateFlags (s : State) (r : Binary64) : State :=
  s.setFlags r.isZero (r.ltNum .zero) (r.absAbove s.W.maxValue)

/-- The flags of CMP: OVERFLOW is left unchanged (41_arithmetic.md R182). -/
def State.compareFlags (s : State) (a b : Binary64) : State :=
  s.setFlags (a.eqNum b) (a.ltNum b) s.OVERFLOW

/-- JE and JZ: `FLAGS == 1` (44_control_flow.md R241). -/
def State.condEqual (s : State) : Bool := s.FLAGS

/-- JNE and JNZ: `FLAGS == 0` (44_control_flow.md R241). -/
def State.condNotEqual (s : State) : Bool := !s.FLAGS

/-- JL: `FLAG == true` (44_control_flow.md R241). -/
def State.condLess (s : State) : Bool := s.FLAG

/-- JG: `FLAGS == 0 AND FLAG == false` (44_control_flow.md R241). -/
def State.condGreater (s : State) : Bool := !s.FLAGS && !s.FLAG

/-- JLE: `FLAG == true OR FLAGS == 1` (44_control_flow.md R241). -/
def State.condLessEqual (s : State) : Bool := s.FLAG || s.FLAGS

/-- JGE: `FLAG == false` (44_control_flow.md R241). -/
def State.condGreaterEqual (s : State) : Bool := !s.FLAG

end Sys2Proof.Machine
end

