-- ==== Sys2Proof/Machine/Operands.lean ====
section
/-! DEFINITION. Operand resolution (30_encoding.md part C, R120 to R127) and the arity check (R132). -/

namespace Sys2Proof.Machine

/-- `nops` against the arity (30_encoding.md R132, R134). -/
def checkArity (n : Nat) (o : Operands) : Except Err Unit :=
  require (decide (o.nops.toNat = n)) .arityMismatch

/-- The register of a number, or InvalidRegister for 8 to 15. -/
def numbered (n : BitVec 4) : Except Err Reg :=
  match regOfNumber n with
  | some r => .ok r
  | none => .error .invalidRegister

/-- `reg_of` (30_encoding.md R120). -/
def regOf : Operand → Except Err Reg
  | .reg n => numbered n
  | .none => .error .invalidRegister
  | .imm _ _ => .error .invalidRegister
  | .mem1 _ => .error .invalidRegister
  | .mem2 _ _ => .error .invalidRegister
  | .vreg _ => .error .invalidRegister
  | .label _ => .error .invalidRegister
  | .bad => .error .invalidRegister

/-- `x[n]` of a register number, as a `Num`: every register value is exactly one (00_scope.md R9). -/
def State.regValue (s : State) (n : BitVec 4) : Except Err Binary64 :=
  match numbered n with
  | .ok r => .ok (Binary64.ofNat (s.reg r))
  | .error e => .error e

/-- `val_rl10`: a register or a decimal literal (30_encoding.md R121). -/
def State.valRl10 (s : State) : Operand → Except Err Binary64
  | .reg n => s.regValue n
  | .imm p .dec => .ok (literalValue p)
  | .imm _ .hex => .error .invalidOperand
  | .imm _ .bin => .error .invalidOperand
  | .none => .error .invalidOperand
  | .mem1 _ => .error .invalidOperand
  | .mem2 _ _ => .error .invalidOperand
  | .vreg _ => .error .invalidOperand
  | .label _ => .error .invalidOperand
  | .bad => .error .invalidOperand

/-- `val_rl`: a register or a literal of any base (30_encoding.md R122). -/
def State.valRl (s : State) : Operand → Except Err Binary64
  | .reg n => s.regValue n
  | .imm p _ => .ok (literalValue p)
  | .none => .error .invalidOperand
  | .mem1 _ => .error .invalidOperand
  | .mem2 _ _ => .error .invalidOperand
  | .vreg _ => .error .invalidOperand
  | .label _ => .error .invalidOperand
  | .bad => .error .invalidOperand

/-- `part_val` (30_encoding.md R125). -/
def State.partVal (s : State) : AddrPart → Except Err Nat
  | .reg n =>
    match numbered n with
    | .ok r => .ok (s.reg r)
    | .error e => .error e
  | .imm p _ => .ok (literalNat p)

/-- `ea`: the effective address, an exact sum (30_encoding.md R124). -/
def State.ea (s : State) : Operand → Except Err Nat
  | .mem1 a => s.partVal a
  | .mem2 a b => do
    let x ← s.partVal a
    let y ← s.partVal b
    .ok (x + y)
  | .none => .error .invalidOperand
  | .reg _ => .error .invalidOperand
  | .imm _ _ => .error .invalidOperand
  | .vreg _ => .error .invalidOperand
  | .label _ => .error .invalidOperand
  | .bad => .error .invalidOperand

/-- `val_any`: the value of a MOV source (30_encoding.md R123). -/
def State.valAny (s : State) (o : Operand) : Except Err Binary64 :=
  if o.isMem then do
    let a ← s.ea o
    s.memRead a
  else s.valRl o

/-- `vreg_of` (30_encoding.md R126). -/
def vregOf : Operand → Except Err VReg
  | .vreg n =>
    match vregOfNumber n with
    | some r => .ok r
    | none => .error .invalidOperand
  | .none => .error .invalidOperand
  | .reg _ => .error .invalidOperand
  | .imm _ _ => .error .invalidOperand
  | .mem1 _ => .error .invalidOperand
  | .mem2 _ _ => .error .invalidOperand
  | .label _ => .error .invalidOperand
  | .bad => .error .invalidOperand

/-- `target_of`: one read of the label table (30_encoding.md R127). For an id of NLABELS or more, which the
table has no entry for, UnknownLabel is the model's choice (DESIGN CHOICE, log entry 21). -/
def State.targetOf (s : State) : Operand → Except Err Nat
  | .label id =>
    match labelTarget s.labels id.toNat with
    | some t => .ok t
    | none => .error .unknownLabel
  | .none => .error .unknownLabel
  | .reg _ => .error .unknownLabel
  | .imm _ _ => .error .unknownLabel
  | .mem1 _ => .error .unknownLabel
  | .mem2 _ _ => .error .unknownLabel
  | .vreg _ => .error .unknownLabel
  | .bad => .error .unknownLabel

end Sys2Proof.Machine
end

