-- ==== Sys2Proof/Machine/Arith.lean ====
section
/-! DEFINITION. The arithmetic and bitwise family (41_arithmetic.md): ADD SUB MUL DIV AND OR XOR INC DEC
NOT CMP. -/

namespace Sys2Proof.Machine

/-- The value of a scalar register as a `Num`. -/
def State.regNum (s : State) (r : Reg) : Binary64 := Binary64.ofNat (s.reg r)

/-- `update_flags(r); x[d] <- r` and the advance of the cursor (41_arithmetic.md R170, R171). -/
def State.commitArith (s : State) (d : Reg) (r : Binary64) : State :=
  ((s.updateFlags r).writeReg d r).advance

/-- The two-operand form: operand 0 is the first source and the destination (41_arithmetic.md R170). -/
def binaryArith (f : Binary64 → Binary64 → Binary64) (o : Operands) (s : State) : Except Err State := do
  checkArity 2 o
  let d ← regOf o.op0
  let v ← s.valRl10 o.op1
  .ok (s.commitArith d (f (s.regNum d) v))

/-- The one-operand form (41_arithmetic.md R179 to R181). -/
def unaryArith (f : Binary64 → Binary64) (o : Operands) (s : State) : Except Err State := do
  checkArity 1 o
  let d ← regOf o.op0
  .ok (s.commitArith d (f (s.regNum d)))

/-- A bitwise operation on the unbounded binary expansions of two non-negative integers, then `fl`
(41_arithmetic.md R176). -/
def bitwiseNum (f : Nat → Nat → Nat) (a b : Binary64) : Binary64 :=
  Binary64.ofNat (f a.trunc.toNat b.trunc.toNat)

/-- The number 1. -/
def one : Binary64 := Binary64.ofNat 1

/-- ADD (41_arithmetic.md R172). -/
def execAdd (o : Operands) (s : State) : Result := attempt s (binaryArith Binary64.add o s)

/-- SUB (41_arithmetic.md R173). -/
def execSub (o : Operands) (s : State) : Result := attempt s (binaryArith Binary64.sub o s)

/-- MUL (41_arithmetic.md R174). -/
def execMul (o : Operands) (s : State) : Result := attempt s (binaryArith Binary64.mul o s)

/-- DIV (41_arithmetic.md R175): the quotient keeps its fraction for the flags. -/
def execDiv (o : Operands) (s : State) : Result :=
  attempt s (do
    checkArity 2 o
    let d ← regOf o.op0
    let v ← s.valRl10 o.op1
    require (!v.isZero) .divisionByZero
    .ok (s.commitArith d (Binary64.div (s.regNum d) v)))

/-- AND (41_arithmetic.md R176). -/
def execAnd (o : Operands) (s : State) : Result :=
  attempt s (binaryArith (bitwiseNum (fun a b => a &&& b)) o s)

/-- OR (41_arithmetic.md R177). -/
def execOr (o : Operands) (s : State) : Result :=
  attempt s (binaryArith (bitwiseNum (fun a b => a ||| b)) o s)

/-- XOR (41_arithmetic.md R178). -/
def execXor (o : Operands) (s : State) : Result :=
  attempt s (binaryArith (bitwiseNum (fun a b => a ^^^ b)) o s)

/-- INC (41_arithmetic.md R179). -/
def execInc (o : Operands) (s : State) : Result :=
  attempt s (unaryArith (fun a => Binary64.add a one) o s)

/-- DEC (41_arithmetic.md R180). -/
def execDec (o : Operands) (s : State) : Result :=
  attempt s (unaryArith (fun a => Binary64.sub a one) o s)

/-- NOT (41_arithmetic.md R181): `-x - 1`, the complement of an unbounded two's-complement integer. -/
def execNot (o : Operands) (s : State) : Result :=
  attempt s (unaryArith (fun a => Binary64.sub a.neg one) o s)

/-- CMP (41_arithmetic.md R182): no register is written and OVERFLOW is left unchanged. -/
def execCmp (o : Operands) (s : State) : Result :=
  attempt s (do
    checkArity 2 o
    let d ← regOf o.op0
    let v ← s.valRl10 o.op1
    .ok (s.compareFlags (s.regNum d) v).advance)

end Sys2Proof.Machine
end

