-- ==== Sys2Proof/Machine/Stack.lean ====
section
/-! DEFINITION. The stack family (43_stack.md): PUSH POP DUP SWAP ROT. The stack grows downward in data
memory and SP is the index of its top cell (R220). -/

namespace Sys2Proof.Machine

/-- Write at `SP - 1`, then `SP <- SP - 1`, with `SP > 0` already checked (43_stack.md R220). -/
def State.pushCell (s : State) (v : Binary64) : Except Err State := do
  let t ← s.memWrite (s.sp - 1) v
  .ok (t.setSP (s.sp - 1))

/-- PUSH (43_stack.md R222): the operand is read before SP changes. -/
def execPush (o : Operands) (s : State) : Result :=
  attempt s (do
    checkArity 1 o
    let v ← s.valRl o.op0
    require (decide (0 < s.sp)) .stackOverflow
    let t ← s.pushCell v
    .ok t.advance)

/-- POP (43_stack.md R223): the register write is applied after the SP update, so `POP SP` ends with the
popped value. -/
def execPop (o : Operands) (s : State) : Result :=
  attempt s (do
    checkArity 1 o
    let d ← regOf o.op0
    require (decide (s.sp < s.memLen)) .stackUnderflow
    let v ← s.memRead s.sp
    .ok ((s.setSP (s.sp + 1)).writeReg d v).advance)

/-- DUP (43_stack.md R224). -/
def execDup (o : Operands) (s : State) : Result :=
  attempt s (do
    checkArity 0 o
    require (decide (s.sp < s.memLen)) .stackUnderflow
    require (decide (0 < s.sp)) .stackOverflow
    let v ← s.memRead s.sp
    let t ← s.pushCell v
    .ok t.advance)

/-- SWAP (43_stack.md R225): `SP <= MEMLEN - 2`, written without subtraction. -/
def execSwap (o : Operands) (s : State) : Result :=
  attempt s (do
    checkArity 0 o
    require (decide (s.sp + 2 ≤ s.memLen)) .stackUnderflow
    let a ← s.memRead s.sp
    let b ← s.memRead (s.sp + 1)
    let t ← s.memWrite s.sp b
    let u ← t.memWrite (s.sp + 1) a
    .ok u.advance)

/-- ROT (43_stack.md R226): (a, b, c) becomes (b, c, a); `SP <= MEMLEN - 3`, written without
subtraction. -/
def execRot (o : Operands) (s : State) : Result :=
  attempt s (do
    checkArity 0 o
    require (decide (s.sp + 3 ≤ s.memLen)) .stackUnderflow
    let a ← s.memRead s.sp
    let b ← s.memRead (s.sp + 1)
    let c ← s.memRead (s.sp + 2)
    let t ← s.memWrite s.sp b
    let u ← t.memWrite (s.sp + 1) c
    let w ← u.memWrite (s.sp + 2) a
    .ok w.advance)

end Sys2Proof.Machine
end

