-- ==== Sys2Proof/Machine/Control.lean ====
section
/-! DEFINITION. The control flow family (44_control_flow.md): JMP, the conditional jumps, CALL and RET. -/

namespace Sys2Proof.Machine

/-- `cond_jump(cond)` (44_control_flow.md R241): the label is looked up only when the jump is taken. -/
def condJump (c : Bool) (o : Operands) (s : State) : Except Err State := do
  checkArity 1 o
  if c then do
    let t ← s.targetOf o.op0
    .ok (s.setPc t)
  else .ok s.advance

/-- JMP (44_control_flow.md R242). -/
def execJmp (o : Operands) (s : State) : Result := attempt s (condJump true o s)

/-- JE (44_control_flow.md R243). -/
def execJe (o : Operands) (s : State) : Result := attempt s (condJump s.condEqual o s)

/-- JZ (44_control_flow.md R244). -/
def execJz (o : Operands) (s : State) : Result := attempt s (condJump s.condEqual o s)

/-- JNE (44_control_flow.md R245). -/
def execJne (o : Operands) (s : State) : Result := attempt s (condJump s.condNotEqual o s)

/-- JNZ (44_control_flow.md R246). -/
def execJnz (o : Operands) (s : State) : Result := attempt s (condJump s.condNotEqual o s)

/-- JL (44_control_flow.md R247). -/
def execJl (o : Operands) (s : State) : Result := attempt s (condJump s.condLess o s)

/-- JG (44_control_flow.md R248). -/
def execJg (o : Operands) (s : State) : Result := attempt s (condJump s.condGreater o s)

/-- JLE (44_control_flow.md R249). -/
def execJle (o : Operands) (s : State) : Result := attempt s (condJump s.condLessEqual o s)

/-- JGE (44_control_flow.md R250). -/
def execJge (o : Operands) (s : State) : Result := attempt s (condJump s.condGreaterEqual o s)

/-- CALL (44_control_flow.md R258): StackOverflow is tested before the label. -/
def execCall (o : Operands) (s : State) : Result :=
  attempt s (do
    checkArity 1 o
    require (decide (0 < s.sp)) .stackOverflow
    let t ← s.targetOf o.op0
    let u ← s.pushCell (Binary64.ofNat (s.pc + 1))
    .ok (u.setPc t))

/-- The cursor position a cell holds: an integer from 0 to PROGLEN (44_control_flow.md R260). -/
def State.returnTarget (s : State) (v : Binary64) : Except Err Nat :=
  match v.toNat? with
  | some n => if n ≤ s.progLen then .ok n else .error .invalidReturnAddress
  | none => .error .invalidReturnAddress

/-- RET (44_control_flow.md R260): on an error the value is not popped. -/
def execRet (o : Operands) (s : State) : Result :=
  attempt s (do
    checkArity 0 o
    require (decide (s.sp < s.memLen)) .stackUnderflow
    let v ← s.memRead s.sp
    let n ← s.returnTarget v
    .ok ((s.setSP (s.sp + 1)).setPc n))

end Sys2Proof.Machine
end

