-- ==== Sys2Proof/Machine/Data.lean ====
section
/-! DEFINITION. The data movement family (42_data_movement.md): MOV LOAD STORE. -/

namespace Sys2Proof.Machine

/-- MOV to a memory destination: its range is checked before the source is looked at
(42_data_movement.md R200, R201). -/
def movToMemory (o : Operands) (s : State) : Except Err State := do
  let a ← s.ea o.op0
  require (decide (a < s.memLen)) .invalidAddress
  let v ← s.valAny o.op1
  let t ← s.memWrite a v
  .ok t.advance

/-- MOV to a register destination (42_data_movement.md R201). -/
def movToRegister (o : Operands) (s : State) : Except Err State := do
  let d ← regOf o.op0
  let v ← s.valAny o.op1
  .ok (s.writeReg d v).advance

/-- MOV (42_data_movement.md R201). -/
def execMov (o : Operands) (s : State) : Result :=
  attempt s (do
    checkArity 2 o
    if o.op0.isMem then movToMemory o s else movToRegister o s)

/-- LOAD (42_data_movement.md R202): a cell that holds NaN raises InvalidMemoryValue. -/
def execLoad (o : Operands) (s : State) : Result :=
  attempt s (do
    checkArity 2 o
    let d ← regOf o.op0
    let a ← s.ea o.op1
    let v ← s.memRead a
    require (!v.isNaN) .invalidMemoryValue
    .ok (s.writeReg d v).advance)

/-- STORE (42_data_movement.md R203): the value is stored unmasked. -/
def execStore (o : Operands) (s : State) : Result :=
  attempt s (do
    checkArity 2 o
    let v ← s.valRl o.op0
    let a ← s.ea o.op1
    let t ← s.memWrite a v
    .ok t.advance)

end Sys2Proof.Machine
end

