-- ==== Sys2Proof/Machine/Sequencer.lean ====
section
/-! DEFINITION. The dispatch state machine (40_sequencer.md): the statement kinds BLANK, LABEL and END, the
fetch, and the algorithm of `step()` (R142) over a function that executes one decoded instruction. -/

namespace Sys2Proof.Machine

/-- BLANK: the cursor passes over it and nothing else happens (40_sequencer.md R146). -/
def execBlank (s : State) : Result := .next s.advance

/-- LABEL: `pc <- pc + 1` with no other effect; the label id is for the host (40_sequencer.md R148,
30_encoding.md R107). -/
def execLabel (_id : BitVec 16) (s : State) : Result := .next s.advance

/-- The end of a run: `run_state <- StoppedSuccess`, the cursor stays (40_sequencer.md R147). -/
def State.complete (s : State) : State := s.setRunState .stoppedSuccess

/-- END (40_sequencer.md R147). -/
def execHalt (s : State) : Result := .next s.complete

/-- StoppedSuccess or StoppedError (40_sequencer.md R152). -/
def State.halted (s : State) : Bool :=
  match s.runState with
  | .loaded => false
  | .running => false
  | .paused => false
  | .stoppedSuccess => true
  | .stoppedError => true

/-- `bp_skip = 0 and shouldPause(pc)`, with `pc` as it is before blank lines are skipped
(40_sequencer.md R145). -/
def State.pausesHere (hook : Nat → Bool) (s : State) : Bool := !s.bpSkip && hook s.pc

/-- The breakpoint pause (40_sequencer.md R145). -/
def State.pauseAtBreakpoint (s : State) : State :=
  { s with bpSkip := true, runState := .paused }

/-- A statement word of kind BLANK (30_encoding.md R107). -/
def StmtWord.isBlank (w : StmtWord) : Bool := decide (w.kind.toNat = 0)

/-- How many BLANK statements stand at the head of a list of statements. -/
def blankRun : List StmtWord → Nat
  | [] => 0
  | w :: l => if StmtWord.isBlank w then blankRun l + 1 else 0

/-- `while pc < PROGLEN and prog[pc].kind = BLANK: pc <- pc + 1` (40_sequencer.md R146). -/
def State.skipBlanks (s : State) : State := s.setPc (s.pc + blankRun (s.prog.drop s.pc))

/-- `bp_skip <- 0`, then the skipping of blank statements (40_sequencer.md R142). -/
def State.beginStep (s : State) : State := { s with bpSkip := false }.skipBlanks

/-- `run_state` after a step that executed something: Paused when it was Loaded or Paused, Running in
run mode, and a stopped state stays (40_sequencer.md R153). -/
def RunState.settle : RunState → RunState
  | .loaded => .paused
  | .running => .running
  | .paused => .paused
  | .stoppedSuccess => .stoppedSuccess
  | .stoppedError => .stoppedError

/-- `settle` on a state. -/
def State.settle (s : State) : State := s.setRunState s.runState.settle

/-- `settle` on an answer. -/
def settleResult (r : Result) : Result :=
  match r with
  | .next s => .next s.settle
  | .fault f => .fault f
  | .refused f => .refused f

/-- The statement at the cursor: none past the end (40_sequencer.md R147), else what its word decodes to
(R149). -/
def State.fetch (s : State) : Option (Except Reject Instr) :=
  match s.prog[s.pc]? with
  | some w => some (decode w)
  | none => none

/-- The algorithm of `step()` (40_sequencer.md R142) over `execute`, which gives a decoded instruction
its meaning, the arity check included (R149). -/
def runStep (execute : Instr → State → Result) (hook : Nat → Bool) (s : State) : Result :=
  if s.halted then .next s
  else if s.pausesHere hook then .next s.pauseAtBreakpoint
  else
    match s.beginStep.fetch with
    | none => .next s.beginStep.complete
    | some (.error (.unknownInstruction _)) => .next (s.beginStep.enterError .unknownInstruction)
    | some (.ok i) => settleResult (execute i s.beginStep)

/-- The answers of the `shouldPause` hook that the state holds (log entry 5). -/
def State.hook (s : State) (i : Nat) : Bool := s.breakpoints.contains i

/-- A program store with statement `w` at index `n`; BLANK statements fill a store that is shorter. -/
def placeWord : List StmtWord → Nat → StmtWord → List StmtWord
  | [], 0, w => [w]
  | [], n + 1, w => ⟨0, 0, 0, 0, 0⟩ :: placeWord [] n w
  | _ :: l, 0, w => w :: l
  | u :: l, n + 1, w => u :: placeWord l n w

/-- A stopped engine made steppable again, as a load does; another state is kept. -/
def RunState.wake : RunState → RunState
  | .loaded => .loaded
  | .running => .running
  | .paused => .paused
  | .stoppedSuccess => .loaded
  | .stoppedError => .loaded

/-- The state whose next step executes statement `w` at the cursor: the word is placed there, a stopped
engine is made steppable, and a breakpoint at the cursor is passed. -/
def State.placeAtCursor (s : State) (w : StmtWord) : State :=
  { s with
    prog := placeWord s.prog s.pc w
    runState := s.runState.wake
    bpSkip := s.bpSkip || s.hook s.pc }

end Sys2Proof.Machine
end

