-- ==== Sys2Proof/Machine/Settings.lean ====
section
/-! DEFINITION. The configuration family (46_config.md): SETMATSIZE. -/

namespace Sys2Proof.Machine

/-- The value of SETMATSIZE: an integer from 1 to MAXLANES (46_config.md R291). -/
def matSizeOf (v : Binary64) : Except Err Nat :=
  match v.toNat? with
  | some n => if 1 ≤ n ∧ n ≤ maxLanes then .ok n else .error .invalidOperand
  | none => .error .invalidOperand

/-- SETMATSIZE (46_config.md R291). -/
def execSetmatsize (o : Operands) (s : State) : Result :=
  attempt s (do
    checkArity 1 o
    let v ← s.valRl o.op0
    let n ← matSizeOf v
    .ok (s.setMatSize n).advance)

end Sys2Proof.Machine
end

