-- ==== Sys2Proof/Machine/Simd.lean ====
section
/-! DEFINITION. The vector unit (45_simd.md): VADD VMUL VDIV VLOAD VSTORE. -/

namespace Sys2Proof.Machine

/-- A lane-wise instruction: the result is computed first and committed whole (45_simd.md R270). -/
def laneWise (f : Binary64 → Binary64 → Binary64) (o : Operands) (s : State) : Except Err State := do
  checkArity 3 o
  let d ← vregOf o.op0
  let a ← vregOf o.op1
  let b ← vregOf o.op2
  .ok (s.setVec d (Lanes.map2 f (s.vec a) (s.vec b))).advance

/-- VADD (45_simd.md R272). -/
def execVadd (o : Operands) (s : State) : Result := attempt s (laneWise Binary64.add o s)

/-- VMUL (45_simd.md R273). -/
def execVmul (o : Operands) (s : State) : Result := attempt s (laneWise Binary64.mul o s)

/-- VDIV (45_simd.md R274): any zero divisor lane raises DivisionByZero and no lane changes. -/
def execVdiv (o : Operands) (s : State) : Result :=
  attempt s (do
    checkArity 3 o
    let d ← vregOf o.op0
    let a ← vregOf o.op1
    let b ← vregOf o.op2
    require (!(s.vec b).any Binary64.isZero) .divisionByZero
    .ok (s.setVec d (Lanes.map2 Binary64.div (s.vec a) (s.vec b))).advance)

/-- VLOAD (45_simd.md R275): any NaN cell raises InvalidMemoryValue. -/
def execVload (o : Operands) (s : State) : Result :=
  attempt s (do
    checkArity 2 o
    let d ← vregOf o.op0
    let a ← s.ea o.op1
    let l ← s.memRead4 a
    require (!l.any Binary64.isNaN) .invalidMemoryValue
    .ok (s.setVec d l).advance)

/-- VSTORE (45_simd.md R276): the lanes are stored exactly. -/
def execVstore (o : Operands) (s : State) : Result :=
  attempt s (do
    checkArity 2 o
    let d ← vregOf o.op0
    let a ← s.ea o.op1
    let t ← s.memWrite4 a (s.vec d)
    .ok t.advance)

end Sys2Proof.Machine
end

