-- ==== Sys2Proof/Machine/Dispatch.lean ====
section
/-! DEFINITION. The dispatch table: one arm per instruction and statement kind (40_sequencer.md R150). -/

namespace Sys2Proof.Machine

def exec (i : Instr) (s : State) : Host.Outcome State Fault Refusal :=
  match i with
  | .add o => Sys2Proof.Machine.execAdd o s
  | .sub o => Sys2Proof.Machine.execSub o s
  | .mul o => Sys2Proof.Machine.execMul o s
  | .div o => Sys2Proof.Machine.execDiv o s
  | .and o => Sys2Proof.Machine.execAnd o s
  | .or o => Sys2Proof.Machine.execOr o s
  | .xor o => Sys2Proof.Machine.execXor o s
  | .inc o => Sys2Proof.Machine.execInc o s
  | .dec o => Sys2Proof.Machine.execDec o s
  | .not o => Sys2Proof.Machine.execNot o s
  | .cmp o => Sys2Proof.Machine.execCmp o s
  | .mov o => Sys2Proof.Machine.execMov o s
  | .load o => Sys2Proof.Machine.execLoad o s
  | .store o => Sys2Proof.Machine.execStore o s
  | .push o => Sys2Proof.Machine.execPush o s
  | .pop o => Sys2Proof.Machine.execPop o s
  | .dup o => Sys2Proof.Machine.execDup o s
  | .swap o => Sys2Proof.Machine.execSwap o s
  | .rot o => Sys2Proof.Machine.execRot o s
  | .jmp o => Sys2Proof.Machine.execJmp o s
  | .je o => Sys2Proof.Machine.execJe o s
  | .jz o => Sys2Proof.Machine.execJz o s
  | .jne o => Sys2Proof.Machine.execJne o s
  | .jnz o => Sys2Proof.Machine.execJnz o s
  | .jl o => Sys2Proof.Machine.execJl o s
  | .jg o => Sys2Proof.Machine.execJg o s
  | .jle o => Sys2Proof.Machine.execJle o s
  | .jge o => Sys2Proof.Machine.execJge o s
  | .call o => Sys2Proof.Machine.execCall o s
  | .ret o => Sys2Proof.Machine.execRet o s
  | .vadd o => Sys2Proof.Machine.execVadd o s
  | .vmul o => Sys2Proof.Machine.execVmul o s
  | .vdiv o => Sys2Proof.Machine.execVdiv o s
  | .vload o => Sys2Proof.Machine.execVload o s
  | .vstore o => Sys2Proof.Machine.execVstore o s
  | .setmatsize o => Sys2Proof.Machine.execSetmatsize o s
  | .blank => Sys2Proof.Machine.execBlank s
  | .label id => Sys2Proof.Machine.execLabel id s
  | .halt => Sys2Proof.Machine.execHalt s

end Sys2Proof.Machine
end

