-- ==== Sys2Proof/Machine/Step.lean ====
section
/-! DEFINITION. `step()` (40_sequencer.md R142), for any `shouldPause` hook and for the one State holds, and
where the host places an instruction that the next step runs. -/

namespace Sys2Proof.Machine

/-- `step()` under a hook: the hook is an input of the step (10_state.md R20, 40_sequencer.md R145). -/
def stepWith (hook : Nat → Bool) (s : State) : Host.Outcome State Fault Refusal :=
  runStep exec hook s

/-- `step()` with the hook that the state's `breakpoints` stand for. -/
def step (s : State) : Host.Outcome State Fault Refusal := stepWith s.hook s

/-- `s` with the opcode-table word `w` of `nbits` bits as the statement at the cursor, so that the next
step runs it (log entry 8). -/
def State.withFetchWord (s : State) (nbits w : Nat) : State := s.placeAtCursor (tableWord nbits w)

end Sys2Proof.Machine
end

