-- ==== Sys2Proof/Machine/Entry.lean ====
section
/-! DEFINITION. The host's entry points (70_reset_and_hazards.md R352): `reset`, the installation of a loaded
program, `setBitWidth`, `run` with its ticks, `stop`, the hook, what `step` returns, and the
notifications (40_sequencer.md R157). Each acts between steps only. -/

namespace Sys2Proof.Machine

/-- `reset()` (70_reset_and_hazards.md R341). The parameters and the host's hook are no state of the
machine and stay (log entries 4, 5). -/
def State.hostReset (s : State) : State :=
  { State.resetOf s.params with breakpoints := s.breakpoints }

/-- What a successful load does with its program and label table (70_reset_and_hazards.md R342): a reset
that keeps the bit width. -/
def State.install (s : State) (prog : List StmtWord) (labels : List (Nat × Nat)) : State :=
  { s.hostReset with W := s.W, prog := prog, labels := labels }

/-- The member of `WIDTHS` that a number is (00_scope.md R6). -/
def widthOfNat (w : Nat) : Option Width :=
  match w with
  | 8 => some .w8
  | 16 => some .w16
  | 32 => some .w32
  | _ => none

/-- `setBitWidth(w)` (10_state.md R33): a width outside `WIDTHS` is ignored. -/
def State.setBitWidth (s : State) (w : Nat) : State :=
  match widthOfNat w with
  | some v => { s with W := v }
  | none => s

/-- `run()` (40_sequencer.md R154): run mode is entered from Loaded and Paused only. -/
def State.run (s : State) : State :=
  match s.runState with
  | .loaded => { s with runState := .running, stopReq := false }
  | .running => s
  | .paused => { s with runState := .running, stopReq := false }
  | .stoppedSuccess => s
  | .stoppedError => s

/-- `stop()` (40_sequencer.md R155): it sets the request and does nothing else. The next tick of run mode
consumes it, and outside run mode the next `run()` clears it. -/
def State.stop (s : State) : State := { s with stopReq := true }

/-- The end of run mode by a stop request (40_sequencer.md R154). -/
def State.consumeStop (s : State) : State := { s with stopReq := false, runState := .paused }

/-- One scheduling tick (40_sequencer.md R154): outside run mode nothing; in run mode a stop request is
consumed without a step, else one step is made. -/
def State.tick (hook : Nat → Bool) (s : State) : Result :=
  match s.runState with
  | .running => if s.stopReq then .next s.consumeStop else stepWith hook s
  | .loaded => .next s
  | .paused => .next s
  | .stoppedSuccess => .next s
  | .stoppedError => .next s

/-- The host sets what its hook answers (40_sequencer.md R145, log entry 5). -/
def State.setBreakpoints (s : State) (l : List Nat) : State := { s with breakpoints := l }

/-- The boolean that `step()` returns (40_sequencer.md R142): false in a stopped state, at a breakpoint
pause, at the end of the program and on an error; true otherwise. -/
def stepContinues (hook : Nat → Bool) (s : State) : Bool :=
  match stepWith hook s with
  | .next t => !s.halted && !s.pausesHere hook && !t.halted
  | .fault _ => false
  | .refused _ => false

/-- What the notification channel emits (40_sequencer.md R157). The payloads are the model's choice, and
so is that a scalar register and a vector register have events and a flag and the cursor have none (log
entry 13). -/
inductive Event where
  | registerChanged (r : Reg)
  | vectorChanged (r : VReg)
  | memoryChanged (a : Nat)
  | outputMessage (text severity : String) (line : Nat)
  | completion
  | error (e : Err)
  deriving DecidableEq, Repr

/-- The scalar registers in order of number. -/
def allRegs : List Reg := [.r0, .r1, .r2, .r3, .r4, .r5, .r6, .sp]

/-- The vector registers in order of number. -/
def allVRegs : List VReg := [.v0, .v1, .v2, .v3]

/-- The addresses listed in either memory, each once. -/
def listedCells (s t : State) : List Nat := ((s.mem ++ t.mem).map Prod.fst).eraseDups

/-- The notifications of one step, derived from the snapshots before and after it (10_state.md R43,
40_sequencer.md R157, 60_exceptions.md R302). Message texts and the breakpoint's severity are free
values. Which changes count as register-changed is the model's choice: those of r0 to r6 and SP, and
none of the cursor, the flags or a configuration or status element (log entry 13). -/
def notifications (s t : State) : List Event :=
  (allRegs.filter (fun r => decide (s.reg r ≠ t.reg r))).map Event.registerChanged
    ++ (allVRegs.filter (fun r => decide (s.vec r ≠ t.vec r))).map Event.vectorChanged
    ++ ((listedCells s t).filter (fun a => decide (s.cell a ≠ t.cell a))).map Event.memoryChanged
    ++ (if t.bpSkip && !s.bpSkip then
          [.outputMessage (Config.messageText 0) Config.breakpointSeverity (s.pc + 1)]
        else [])
    ++ (if s.halted then []
        else
          match t.runState, t.errCode with
          | .stoppedSuccess, _ => [.completion]
          | .stoppedError, some e =>
            [.outputMessage (Config.messageText e.code) "error" t.errLine, .error e]
          | _, _ => [])

end Sys2Proof.Machine
end

