-- ==== Sys2Proof/Machine/Loader.lean ====
section
/-! DEFINITION. The loader contract (30_encoding.md R90 to R104) and `loadProgram` (70_reset_and_hazards.md
R342 to R344). A text is a list of characters. -/

namespace Sys2Proof.Machine

/-- White space (70_reset_and_hazards.md R343, 93_implementation_defined.md U8; log entry 11). -/
def isSpace (c : Char) : Bool := c == ' ' || c == '\t' || c == '\n' || c == '\r'

/-- `\w`: `A-Z`, `a-z`, `0-9` and `_` (30_encoding.md R94). -/
def isWordChar (c : Char) : Bool := c.isAlpha || c.isDigit || c == '_'

/-- Leading and trailing white space removed. -/
def trim (l : List Char) : List Char :=
  ((l.dropWhile isSpace).reverse.dropWhile isSpace).reverse

/-- A list split at every occurrence of a character; never empty. -/
def splitAtChar (sep : Char) : List Char → List (List Char)
  | [] => [[]]
  | c :: l =>
    match splitAtChar sep l with
    | [] => [[c]]
    | h :: t => if c == sep then [] :: h :: t else (c :: h) :: t

/-- The lines of a text: a final newline at the very end does not begin another line
(70_reset_and_hazards.md R342). -/
def textLines (text : List Char) : List (List Char) :=
  let ls := splitAtChar '\n' text
  match text.getLast? with
  | some '\n' => ls.dropLast
  | _ => ls

/-- A line without its comment, trimmed (30_encoding.md R90). -/
def statementOf (line : List Char) : List Char := trim (line.takeWhile (fun c => c != ';'))

/-- Letter case ignored (30_encoding.md R93, R96). -/
def upper (l : List Char) : List Char := l.map Char.toUpper

/-- The termination markers compared with the whole line (30_encoding.md R93). -/
def endMarkers : List (List Char) :=
  ["END".toList, "END:".toList, "END_OF_PROGRAM".toList, "HALT".toList, ".END".toList]

/-- A termination marker (30_encoding.md R93). -/
def isEndLine (l : List Char) : Bool :=
  endMarkers.contains (upper l) || "END ".toList.isPrefixOf (upper l)

/-- The name before the first colon, when the line matches `^(\w+):` (30_encoding.md R94). -/
def definedLabel (l : List Char) : Option (List Char) :=
  let name := l.takeWhile isWordChar
  match name, l.drop name.length with
  | _ :: _, ':' :: _ => some name
  | _, _ => none

/-- The mnemonics with their opcode numbers (30_encoding.md R130). -/
def mnemonics : List (List Char × BitVec 8) :=
  [("ADD".toList, 0x01), ("SUB".toList, 0x02), ("MUL".toList, 0x03), ("DIV".toList, 0x04),
   ("AND".toList, 0x05), ("OR".toList, 0x06), ("XOR".toList, 0x07), ("INC".toList, 0x08),
   ("DEC".toList, 0x09), ("NOT".toList, 0x0A), ("CMP".toList, 0x0B), ("MOV".toList, 0x10),
   ("LOAD".toList, 0x11), ("STORE".toList, 0x12), ("PUSH".toList, 0x20), ("POP".toList, 0x21),
   ("DUP".toList, 0x22), ("SWAP".toList, 0x23), ("ROT".toList, 0x24), ("JMP".toList, 0x30),
   ("JE".toList, 0x31), ("JZ".toList, 0x32), ("JNE".toList, 0x33), ("JNZ".toList, 0x34),
   ("JL".toList, 0x35), ("JG".toList, 0x36), ("JLE".toList, 0x37), ("JGE".toList, 0x38),
   ("CALL".toList, 0x39), ("RET".toList, 0x3A), ("VADD".toList, 0x40), ("VMUL".toList, 0x41),
   ("VDIV".toList, 0x42), ("VLOAD".toList, 0x43), ("VSTORE".toList, 0x44),
   ("SETMATSIZE".toList, 0x50)]

/-- The opcode number of an opcode text, 0xFF when it is no mnemonic (30_encoding.md R104). -/
def opcodeOf (t : List Char) : BitVec 8 := (mnemonics.lookup (upper t)).getD 0xFF

/-- A source line: its kind (30_encoding.md R91), with the label name it registers (R94) or its opcode and
operand tokens (R96). -/
inductive SrcLine where
  | blank
  | halt (label : Option (List Char))
  | label (name : List Char)
  | insn (opc : BitVec 8) (tokens : List (List Char))
  deriving DecidableEq, Repr

/-- The operand tokens of the remainder of an instruction line (30_encoding.md R96). -/
def tokensOf (rest : List Char) : List (List Char) :=
  match trim rest with
  | [] => []
  | c :: l => (splitAtChar ',' (c :: l)).map trim

/-- The opcode text of an instruction line: up to the first white space (30_encoding.md R96). -/
def opcodeText (l : List Char) : List Char := l.takeWhile (fun c => !isSpace c)

/-- The operand tokens of an instruction line (30_encoding.md R96). -/
def operandTokens (l : List Char) : List (List Char) := tokensOf (l.dropWhile (fun c => !isSpace c))

/-- The kind of a line, tested in the order BLANK, END, LABEL, INSN (30_encoding.md R91). -/
def parseLine (line : List Char) : SrcLine :=
  let l := statementOf line
  if l.isEmpty then .blank
  else if isEndLine l then .halt (definedLabel l)
  else
    match definedLabel l with
    | some name => .label name
    | none => .insn (opcodeOf (opcodeText l)) (operandTokens l)

/-- A decimal digit of a register name below a bound. -/
def indexDigit (c : Char) (bound : Nat) : Option (BitVec 4) :=
  if c.isDigit && decide (c.toNat - 48 < bound) then some (BitVec.ofNat 4 (c.toNat - 48)) else none

/-- A register name (30_encoding.md R101). -/
def regName (t : List Char) : Option (BitVec 4) :=
  match t with
  | ['S', 'P'] => some 7
  | ['r', c] => indexDigit c 7
  | _ => none

/-- A vector register name (30_encoding.md R102). -/
def vregName (t : List Char) : Option (BitVec 4) :=
  match t with
  | ['v', c] => indexDigit c 4
  | _ => none

/-- The value of a digit, in any of the three bases (30_encoding.md R99). -/
def digitValue (c : Char) : Option Nat :=
  if c.isDigit then some (c.toNat - 48)
  else if 'a' ≤ c ∧ c ≤ 'f' then some (c.toNat - 87)
  else if 'A' ≤ c ∧ c ≤ 'F' then some (c.toNat - 55)
  else none

/-- The number that digits spell in a base, most significant first; `none` when one is no digit of it. -/
def digitsValue (base : Nat) : List Char → Nat → Option Nat
  | [], acc => some acc
  | c :: l, acc =>
    match digitValue c with
    | some d => if d < base then digitsValue base l (acc * base + d) else none
    | none => none

/-- One or more digits whose value is below 2^64 (30_encoding.md R99). -/
def payloadOf (base : Nat) (ds : List Char) : Option Word :=
  match ds, digitsValue base ds 0 with
  | _ :: _, some n => if n < 2 ^ 64 then some (BitVec.ofNat 64 n) else none
  | _, _ => none

/-- A literal (30_encoding.md R99). -/
def literalOf (t : List Char) : Option (Word × LitBase) :=
  match t with
  | '0' :: 'x' :: ds => (payloadOf 16 ds).map (fun p => (p, .hex))
  | '0' :: 'b' :: ds => (payloadOf 2 ds).map (fun p => (p, .bin))
  | ds => (payloadOf 10 ds).map (fun p => (p, .dec))

/-- A part of a memory reference (30_encoding.md R100). -/
def partOf (t : List Char) : Option AddrPart :=
  match regName t, literalOf t with
  | some n, _ => some (.reg n)
  | none, some (p, b) => some (.imm p b)
  | none, none => none

/-- The inner text of a bracketed token (30_encoding.md R100). -/
def bracketed (t : List Char) : Option (List Char) :=
  match t with
  | '[' :: rest => if rest.getLast? = some ']' then some rest.dropLast else none
  | _ => none

/-- One part, or two joined by one `+`, all white space removed; anything else is BAD
(30_encoding.md R100). -/
def addressOf (inner : List Char) : Operand :=
  match splitAtChar '+' (inner.filter (fun c => !isSpace c)) with
  | [a] =>
    match partOf a with
    | some p => .mem1 p
    | none => .bad
  | [a, b] =>
    match partOf a, partOf b with
    | some p, some q => .mem2 p q
    | _, _ => .bad
  | _ => .bad

/-- The classification of a token by its text (30_encoding.md R98). -/
def classify (t : List Char) : Operand :=
  match regName t, bracketed t, literalOf t with
  | some n, _, _ => .reg n
  | none, some inner, _ => addressOf inner
  | none, none, some (p, b) => .imm p b
  | none, none, none => .bad

/-- The control-flow opcodes with a label operand (30_encoding.md R102). -/
def isJumpOpc (opc : BitVec 8) : Bool := decide (0x30 ≤ opc.toNat) && decide (opc.toNat ≤ 0x39)

/-- A vector position (30_encoding.md R102). -/
def isVectorPos (opc : BitVec 8) (k : Nat) : Bool :=
  [0x40, 0x41, 0x42].contains opc.toNat || ([0x43, 0x44].contains opc.toNat && k == 0)

/-- An address position, where the brackets may be left out (30_encoding.md R100). -/
def isAddressPos (opc : BitVec 8) (k : Nat) : Bool :=
  [0x11, 0x12, 0x43, 0x44].contains opc.toNat && k == 1

/-- The id of a label name: its place in the order of first appearance (30_encoding.md R104). -/
def labelId (names : List (List Char)) (t : List Char) : BitVec 16 :=
  BitVec.ofNat 16 (names.idxOf t)

/-- The class of operand `k` (30_encoding.md R104). -/
def operandAt (names : List (List Char)) (opc : BitVec 8) (tokens : List (List Char)) (k : Nat) :
    Operand :=
  match tokens[k]? with
  | none => .none
  | some t =>
    if isJumpOpc opc && k == 0 then .label (labelId names t)
    else if isVectorPos opc k then
      match vregName t with
      | some n => .vreg n
      | none => .bad
    else if isAddressPos opc k then addressOf ((bracketed t).getD t)
    else if k == 2 then
      match regName t with
      | some n => .reg n
      | none => .bad
    else classify t

/-- The operand count, 15 for 15 or more, and the first three operands (30_encoding.md R104). -/
def operandsAt (names : List (List Char)) (opc : BitVec 8) (tokens : List (List Char)) : Operands where
  nops := BitVec.ofNat 4 (min tokens.length 15)
  op0 := operandAt names opc tokens 0
  op1 := operandAt names opc tokens 1
  op2 := operandAt names opc tokens 2

/-- The statement word of a line (30_encoding.md R104, R107). -/
def wordOfLine (names : List (List Char)) (l : SrcLine) : StmtWord :=
  match l with
  | .blank => encode .blank
  | .halt _ => encode .halt
  | .label name => encode (.label (labelId names name))
  | .insn opc tokens => encodeInsn opc (operandsAt names opc tokens)

/-- The label name a line registers (30_encoding.md R94). -/
def SrcLine.defines : SrcLine → Option (List Char)
  | .blank => none
  | .halt name => name
  | .label name => some name
  | .insn _ _ => none

/-- The label name a line mentions first: as a definition, or as the operand of a control-flow opcode
(30_encoding.md R104). -/
def SrcLine.mentions : SrcLine → Option (List Char)
  | .blank => none
  | .halt name => name
  | .label name => some name
  | .insn opc tokens => if isJumpOpc opc then tokens[0]? else none

/-- The label names in order of first appearance (30_encoding.md R104). -/
def labelNames (ls : List SrcLine) : List (List Char) := (ls.filterMap SrcLine.mentions).eraseDups

/-- The index of the line that defines a name, from index `i` on. -/
def definitionLine (name : List Char) : List SrcLine → Nat → Option Nat
  | [], _ => none
  | l :: ls, i => if l.defines = some name then some i else definitionLine name ls (i + 1)

/-- The label table: the defined names, by id (10_state.md R41). -/
def labelTable (ls : List SrcLine) : List (List Char) → Nat → List (Nat × Nat)
  | [], _ => []
  | name :: names, id =>
    match definitionLine name ls 0 with
    | some target => (id, target) :: labelTable ls names (id + 1)
    | none => labelTable ls names (id + 1)

/-- The 1-based number of the first line that defines a name already defined above it
(30_encoding.md R94, 70_reset_and_hazards.md R344). Where several lines do, naming the first is the
model's choice (DESIGN CHOICE, log entry 22). -/
def duplicateLine : List (List Char) → List SrcLine → Nat → Option Nat
  | _, [], _ => none
  | seen, l :: ls, i =>
    match l.defines with
    | some name => if seen.contains name then some i else duplicateLine (name :: seen) ls (i + 1)
    | none => duplicateLine seen ls (i + 1)

/-- The parsed lines of a text. -/
def parseText (text : List Char) : List SrcLine := (textLines text).map parseLine

/-- `loadProgram(text)` (70_reset_and_hazards.md R342 to R344): an empty text and a text that defines a
label twice change nothing; a text over the capacities is refused (log entry 12). -/
def State.loadProgram (s : State) (text : List Char) : Result :=
  if text.all isSpace then .next s
  else
    let ls := parseText text
    match duplicateLine [] ls 1 with
    | some _ => .next s
    | none =>
      let names := labelNames ls
      if s.params.progMax < ls.length then .refused (.programTooLong ls.length)
      else if s.params.nLabels < names.length then .refused (.tooManyLabels names.length)
      else .next (s.install (ls.map (wordOfLine names)) (labelTable ls names 0))

/-- What the notification channel emits at a load (70_reset_and_hazards.md R343, R344): nothing for an empty
text, and for a rejected one an error message that names the line of the second definition. The text is
a free value (log entry 13). -/
def loadNotifications (text : List Char) : List Event :=
  if text.all isSpace then []
  else
    match duplicateLine [] (parseText text) 1 with
    | some k => [.outputMessage (Config.loadMessageText k) "error" k]
    | none => []

end Sys2Proof.Machine
end

