-- ==== Sys2Proof/Safety.lean ====
section
/-! DEFINITION. What counts as a safe run: the invariant that every step keeps, and the terms in which
statements say what an instruction changes and what it leaves alone. -/

namespace Sys2Proof

/-- A magnitude with a 53-bit significand, in units of `2^(-1074)` (00_scope.md R9). -/
abbrev HasSignificand (m : Nat) : Prop := m % 2 ^ (m.log2 - 52) = 0

/-- A value that binary64 holds (00_scope.md R9): a finite magnitude has a 53-bit significand and lies
below `2^1024`. -/
abbrev Binary64.Representable (v : Binary64) : Prop :=
  match v with
  | .nan => True
  | .inf _ => True
  | .fin _ m => HasSignificand m ∧ m < Binary64.limit

/-- A value that is not negative, -0 excluded too (20_memory.md R61, 45_simd.md R282). -/
abbrev Binary64.NotNegative (v : Binary64) : Prop :=
  match v with
  | .nan => True
  | .inf neg => neg = false
  | .fin neg _ => neg = false

/-- What a cell or a lane can hold in a run (20_memory.md R61, 45_simd.md R282). -/
abbrev Binary64.Proper (v : Binary64) : Prop := v.Representable ∧ v.NotNegative

namespace Machine

/-- All four lanes proper. -/
abbrev Lanes.Proper (l : Lanes) : Prop := l.l0.Proper ∧ l.l1.Proper ∧ l.l2.Proper ∧ l.l3.Proper

/-- The invariant of the machine: what every step keeps, from any state that has it. -/
structure State.Inv (s : State) : Prop where
  /-- the parameters are legal (00_scope.md R6) -/
  params : s.params.Legal
  /-- memory is in its canonical form -/
  memory : Memory.wf s.mem
  /-- every listed cell lies in `[0, MEMLEN)` (20_memory.md R62) and holds a proper value (R61) -/
  cells : ∀ p ∈ s.mem, p.1 < s.memLen ∧ p.2.Proper
  /-- every lane is proper (45_simd.md R282) -/
  lanes : ∀ r, (s.vec r).Proper
  /-- `MATSIZE` in 1 .. MAXLANES (10_state.md R32) -/
  matSize : 1 ≤ s.MATSIZE ∧ s.MATSIZE ≤ maxLanes
  /-- `PROGLEN <= PROGMAX` (10_state.md R32) -/
  progLen : s.progLen ≤ s.params.progMax
  /-- `pc` in `[0, PROGLEN]` (10_state.md R26) -/
  cursor : s.pc ≤ s.progLen
  /-- the label table is sorted by id, its ids below NLABELS, its targets statements (44_control_flow.md
  R240) -/
  labels : List.Pairwise (fun p q : Nat × Nat => p.1 < q.1) s.labels ∧
    ∀ p ∈ s.labels, p.1 < s.params.nLabels ∧ p.2 < s.progLen
  /-- an error code is recorded exactly in StoppedError, with the line of the cursor (10_state.md R36,
  60_exceptions.md R320) -/
  errors : (s.runState = .stoppedError ∧ s.errCode ≠ none ∧ s.errLine = s.pc + 1) ∨
    (s.runState ≠ .stoppedError ∧ s.errCode = none ∧ s.errLine = 0)

/-- A safe state: the run has not ended in an error (40_sequencer.md R158). -/
def State.Safe (s : State) : Prop := s.runState ≠ .stoppedError

/-! ### What an instruction leaves alone -/

/-- Every scalar register but those of `l` reads as before. -/
def RegsKeptBut (l : List Reg) (s t : State) : Prop := ∀ r, r ∉ l → t.reg r = s.reg r

/-- Every vector register but those of `l` reads as before. -/
def VecsKeptBut (l : List VReg) (s t : State) : Prop := ∀ r, r ∉ l → t.vec r = s.vec r

/-- Every cell but those of `l` reads as before. -/
def CellsKeptBut (l : List Nat) (s t : State) : Prop := ∀ a, a ∉ l → t.cell a = s.cell a

/-- The three flags are as before. -/
def FlagsKept (s t : State) : Prop :=
  t.FLAGS = s.FLAGS ∧ t.FLAG = s.FLAG ∧ t.OVERFLOW = s.OVERFLOW

/-- Everything else but `MATSIZE` and the cursor is as before: the parameters, the program store, the
label table, the width, the run state, the error registers, the hidden bits and the hook. -/
def ControlKept (s t : State) : Prop :=
  t.params = s.params ∧ t.prog = s.prog ∧ t.labels = s.labels ∧ t.W = s.W ∧
  t.runState = s.runState ∧ t.errCode = s.errCode ∧ t.errLine = s.errLine ∧
  t.bpSkip = s.bpSkip ∧ t.stopReq = s.stopReq ∧ t.breakpoints = s.breakpoints

/-- The frame of an instruction that may write the scalar registers `rs`, the vector registers `vs` and
the cells `cs`, and neither a flag nor `MATSIZE`. The cursor is said apart. -/
def FrameBut (rs : List Reg) (vs : List VReg) (cs : List Nat) (s t : State) : Prop :=
  RegsKeptBut rs s t ∧ VecsKeptBut vs s t ∧ CellsKeptBut cs s t ∧ FlagsKept s t ∧
  t.MATSIZE = s.MATSIZE ∧ ControlKept s t

/-- What an arithmetic or bitwise instruction with unmasked result `r` leaves (41_arithmetic.md R170,
R171): the destination, the three flags, the cursor, and nothing else. -/
def ArithOutcome (s t : State) (d : Reg) (r : Binary64) : Prop :=
  t.reg d = maskNum s.W r ∧
  t.FLAGS = r.isZero ∧ t.FLAG = r.ltNum .zero ∧ t.OVERFLOW = r.absAbove s.W.maxValue ∧
  t.pc = s.pc + 1 ∧ RegsKeptBut [d] s t ∧ VecsKeptBut [] s t ∧ CellsKeptBut [] s t ∧
  t.MATSIZE = s.MATSIZE ∧ ControlKept s t

/-! ### Operand values, as the rules name them -/

/-- The value of a register or decimal literal as the integer it is (30_encoding.md R121). -/
def State.operandNat (s : State) (o : Operand) : Option Nat :=
  match o with
  | .reg n => (regOfNumber n).map s.reg
  | .imm p .dec => some (literalNat p)
  | _ => none

/-- Which instructions can raise an error while they execute, by the instructions' own rules, whose
summary is the table of 60_exceptions.md R301 (log entry 14 says where the two differ).
UnknownInstruction is raised by the sequencer, for a word that is no instruction. -/
def raisedBy (e : Err) (i : Instr) : Bool :=
  match e, i with
  | .arityMismatch, .blank | .arityMismatch, .label _ | .arityMismatch, .halt => false
  | .arityMismatch, _ => true
  | .unknownInstruction, _ => false
  | .divisionByZero, .div _ | .divisionByZero, .vdiv _ => true
  | .divisionByZero, _ => false
  | .invalidMemoryValue, .load _ | .invalidMemoryValue, .vload _ => true
  | .invalidMemoryValue, _ => false
  | .stackOverflow, .push _ | .stackOverflow, .dup _ | .stackOverflow, .call _ => true
  | .stackOverflow, _ => false
  | .stackUnderflow, .pop _ | .stackUnderflow, .dup _ | .stackUnderflow, .swap _
  | .stackUnderflow, .rot _ | .stackUnderflow, .ret _ => true
  | .stackUnderflow, _ => false
  | .unknownLabel, .jmp _ | .unknownLabel, .je _ | .unknownLabel, .jz _ | .unknownLabel, .jne _
  | .unknownLabel, .jnz _ | .unknownLabel, .jl _ | .unknownLabel, .jg _ | .unknownLabel, .jle _
  | .unknownLabel, .jge _ | .unknownLabel, .call _ => true
  | .unknownLabel, _ => false
  | .invalidReturnAddress, .ret _ => true
  | .invalidReturnAddress, _ => false
  | .invalidAddress, .mov _ | .invalidAddress, .load _ | .invalidAddress, .store _
  | .invalidAddress, .push _ | .invalidAddress, .call _ | .invalidAddress, .vload _
  | .invalidAddress, .vstore _ => true
  | .invalidAddress, _ => false
  | .invalidRegister, .add _ | .invalidRegister, .sub _ | .invalidRegister, .mul _
  | .invalidRegister, .div _ | .invalidRegister, .and _ | .invalidRegister, .or _
  | .invalidRegister, .xor _ | .invalidRegister, .inc _ | .invalidRegister, .dec _
  | .invalidRegister, .not _ | .invalidRegister, .cmp _ | .invalidRegister, .mov _
  | .invalidRegister, .load _ | .invalidRegister, .store _ | .invalidRegister, .push _
  | .invalidRegister, .pop _ | .invalidRegister, .vload _ | .invalidRegister, .vstore _
  | .invalidRegister, .setmatsize _ => true
  | .invalidRegister, _ => false
  | .invalidOperand, .add _ | .invalidOperand, .sub _ | .invalidOperand, .mul _
  | .invalidOperand, .div _ | .invalidOperand, .and _ | .invalidOperand, .or _
  | .invalidOperand, .xor _ | .invalidOperand, .cmp _ | .invalidOperand, .mov _
  | .invalidOperand, .load _ | .invalidOperand, .store _ | .invalidOperand, .push _
  | .invalidOperand, .vadd _ | .invalidOperand, .vmul _ | .invalidOperand, .vdiv _
  | .invalidOperand, .vload _ | .invalidOperand, .vstore _ | .invalidOperand, .setmatsize _ => true
  | .invalidOperand, _ => false

/-- The instructions that write the flags (10_state.md R31). -/
def writesFlags : Instr → Bool
  | .add _ | .sub _ | .mul _ | .div _ | .and _ | .or _ | .xor _ | .inc _ | .dec _ | .not _
  | .cmp _ => true
  | _ => false

/-- The instructions that write memory cells (20_memory.md R67). -/
def writesCells : Instr → Bool
  | .mov _ | .store _ | .push _ | .dup _ | .swap _ | .rot _ | .call _ | .vstore _ => true
  | _ => false

/-- The instructions that write a vector register (10_state.md R38). -/
def writesVectors : Instr → Bool
  | .vadd _ | .vmul _ | .vdiv _ | .vload _ => true
  | _ => false

/-- The instructions that write a scalar register: an explicit destination, or SP as the stack unit
updates it (10_state.md R23, R25). -/
def writesRegs : Instr → Bool
  | .add _ | .sub _ | .mul _ | .div _ | .and _ | .or _ | .xor _ | .inc _ | .dec _ | .not _
  | .mov _ | .load _ | .push _ | .pop _ | .dup _ | .call _ | .ret _ => true
  | _ => false

/-- The two-operand instructions of the arithmetic group (30_encoding.md R131). -/
def binaryGroup : List (Operands → Instr) :=
  [.add, .sub, .mul, .div, .and, .or, .xor, .cmp]

/-- The 36 mnemonics and what they spell (30_encoding.md R130). -/
def mnemonicTable : List (String × (Operands → Instr)) :=
  [("ADD", .add), ("SUB", .sub), ("MUL", .mul), ("DIV", .div), ("AND", .and), ("OR", .or),
   ("XOR", .xor), ("INC", .inc), ("DEC", .dec), ("NOT", .not), ("CMP", .cmp), ("MOV", .mov),
   ("LOAD", .load), ("STORE", .store), ("PUSH", .push), ("POP", .pop), ("DUP", .dup),
   ("SWAP", .swap), ("ROT", .rot), ("JMP", .jmp), ("JE", .je), ("JZ", .jz), ("JNE", .jne),
   ("JNZ", .jnz), ("JL", .jl), ("JG", .jg), ("JLE", .jle), ("JGE", .jge), ("CALL", .call),
   ("RET", .ret), ("VADD", .vadd), ("VMUL", .vmul), ("VDIV", .vdiv), ("VLOAD", .vload),
   ("VSTORE", .vstore), ("SETMATSIZE", .setmatsize)]

/-- The mnemonics whose operand is a label reference (30_encoding.md R102). -/
def labelMnemonics : List String :=
  ["JMP", "JE", "JZ", "JNE", "JNZ", "JL", "JG", "JLE", "JGE", "CALL"]

/-- A label id stands for a name of a text: its entry of the label table holds the index of the line that
defines the name, and is not valid when no line does (10_state.md R41, 30_encoding.md R94, R104). -/
def IdStandsFor (text : List Char) (labels : List (Nat × Nat)) (id : BitVec 16)
    (name : List Char) : Prop :=
  (∀ (j : Nat) (line : List Char), (textLines text)[j]? = some line →
    definedLabel (statementOf line) = some name → labelTarget labels id.toNat = some j) ∧
  ((∀ line ∈ textLines text, definedLabel (statementOf line) ≠ some name) →
    labelTarget labels id.toNat = none)

/-- What the statement word of a line decodes to, by the statement text `l` of the line (30_encoding.md
R91, R93, R94, R96, R104): BLANK, END, LABEL with the id of its name, the instruction its mnemonic spells
with its operands, or no instruction when the opcode text is no mnemonic. -/
def LineBecomes (text : List Char) (labels : List (Nat × Nat)) (l : List Char) (w : StmtWord) : Prop :=
  (l = [] → decode w = .ok .blank) ∧
  (isEndLine l = true → decode w = .ok .halt) ∧
  (∀ name, isEndLine l = false → definedLabel l = some name →
    ∃ id, decode w = .ok (.label id) ∧ IdStandsFor text labels id name) ∧
  (l ≠ [] → isEndLine l = false → definedLabel l = none →
    (∀ p ∈ mnemonicTable, upper (opcodeText l) = p.1.toList →
      ∃ o : Operands, decode w = .ok (p.2 o) ∧ o.nops.toNat = min (operandTokens l).length 15 ∧
        o = operandsAt (labelNames (parseText text)) (opcodeOf (opcodeText l)) (operandTokens l) ∧
        (p.1 ∈ labelMnemonics → ∀ name, (operandTokens l)[0]? = some name →
          ∃ id, o.op0 = .label id ∧ IdStandsFor text labels id name)) ∧
    ((∀ p ∈ mnemonicTable, upper (opcodeText l) ≠ p.1.toList) → ∃ r, decode w = .error r))

/-- The jumps with the conditions of 44_control_flow.md R241, over FLAGS and FLAG; JMP is always
taken (R242). -/
def jumpTable : List ((Operands → Instr) × (Bool → Bool → Bool)) :=
  [(.jmp, fun _ _ => true), (.je, fun z _ => z), (.jz, fun z _ => z), (.jne, fun z _ => !z),
   (.jnz, fun z _ => !z), (.jl, fun _ n => n), (.jg, fun z n => !z && !n),
   (.jle, fun z n => n || z), (.jge, fun _ n => !n)]

end Machine

end Sys2Proof
end

