-- ==== Sys2Proof/Certificates/Slice0/Obligations.lean ====
section
/-! DEFINITION. The statements about the SIMASM CPU: what each instruction does and leaves alone, the
sequencer, the errors, the encodings, and the invariant of every step. -/

open Sys2Proof Sys2Proof.Machine

/-! ### Encoding -/

/-- Every well-formed instruction is read back from its own statement word: no bit of the encoding of
30_encoding.md R105 to R112 is dropped. -/
def Obligations.DecodeOfEncodeIsTheInstruction : Prop :=
  ∀ i : Instr, i.WellFormed = true → decode (encode i) = .ok i

/-- Header bits 63:42 do not matter (30_encoding.md R106, R133). -/
def Obligations.ReservedHeaderBitsAreIgnored : Prop :=
  ∀ (w : StmtWord) (v : BitVec 22),
    decode { w with w0 := (v ++ w.w0.extractLsb' 0 42 : BitVec (22 + 42)) } = decode w

/-- A word is no instruction exactly when it is an INSN whose opcode number is not one of the 36 of
30_encoding.md R130 (R132). -/
def Obligations.UnknownOpcodesAreTheUnlistedOnes : Prop :=
  ∀ w : StmtWord,
    (∃ r, decode w = .error r) ↔
      w.kind = 3#2 ∧
      w.opc.toNat ∉
        [0x01, 0x02, 0x03, 0x04, 0x05, 0x06, 0x07, 0x08, 0x09, 0x0A, 0x0B, 0x10, 0x11, 0x12,
         0x20, 0x21, 0x22, 0x23, 0x24, 0x30, 0x31, 0x32, 0x33, 0x34, 0x35, 0x36, 0x37, 0x38,
         0x39, 0x3A, 0x40, 0x41, 0x42, 0x43, 0x44, 0x50]

/-- Words that 95_test_vectors.md writes out for its programs decode to the instructions their lines
spell. -/
def Obligations.WordsOfTheSpecsProgramsDecode : Prop :=
  decode ⟨0x12004843, 1, 0, 5, 0⟩ = .ok (.mov ⟨2, .reg 1, .imm 5 .dec, .none⟩) ∧
  decode ⟨0x1004807, 0, 0, 1, 0⟩ = .ok (.add ⟨2, .reg 0, .reg 1, .none⟩) ∧
  decode ⟨0x184D3, 0, 0, 0, 0⟩ = .ok (.jnz ⟨1, .label 0, .none, .none⟩) ∧
  decode ⟨0x4483, 1, 0, 0, 0⟩ = .ok (.push ⟨1, .reg 1, .none, .none⟩) ∧
  decode ⟨0xEB, 0, 0, 0, 0⟩ = .ok (.ret ⟨0, .none, .none, .none⟩) ∧
  decode ⟨0x8401490F, 2, 0, 2, 4⟩ =
    .ok (.vload ⟨2, .vreg 2, .mem2 (.reg 2) (.imm 4 .dec), .none⟩) ∧
  decode ⟨0x9405014D03, 0, 0, 1, 0⟩ = .ok (.vadd ⟨3, .vreg 0, .vreg 1, .vreg 2⟩) ∧
  decode ⟨0x3204C843, 0x6A, 0, 2, 0⟩ =
    .ok (.mov ⟨2, .mem1 (.imm 0x6A .dec), .imm 2 .hex, .none⟩) ∧
  decode ⟨2, 0, 0, 0, 0⟩ = .ok .halt

/-! ### Operand resolution -/

/-- Operand resolution, function by function: the value of each operand that its rule accepts, and for
every other operand the error that the rule names (30_encoding.md R120 to R127). UnknownLabel for an id of
NLABELS or more is the model's choice: log entry 21. -/
def Obligations.OperandResolutionFollowsItsRules : Prop :=
  (List.map regOfNumber [0, 1, 2, 3, 4, 5, 6, 7] =
    [some .r0, some .r1, some .r2, some .r3, some .r4, some .r5, some .r6, some .sp]) ∧
  (List.map vregOfNumber [0, 1, 2, 3] = [some .v0, some .v1, some .v2, some .v3]) ∧
  (∀ (s : State) (n m : BitVec 4) (r : Reg) (q : VReg),
    regOfNumber n = some r → vregOfNumber m = some q →
    regOf (.reg n) = .ok r ∧ s.valRl10 (.reg n) = .ok (Binary64.ofNat (s.reg r)) ∧
    s.valRl (.reg n) = .ok (Binary64.ofNat (s.reg r)) ∧ s.partVal (.reg n) = .ok (s.reg r) ∧
    vregOf (.vreg m) = .ok q) ∧
  (∀ (s : State) (p : Word) (b : LitBase),
    s.valRl10 (.imm p .dec) = .ok (Binary64.ofNat p.toNat) ∧
    s.valRl (.imm p b) = .ok (Binary64.ofNat p.toNat) ∧
    s.partVal (.imm p b) = .ok (literalNat p) ∧
    Binary64.ofNat p.toNat = .fin false (Binary64.unit * literalNat p)) ∧
  (∀ (s : State) (a b : AddrPart) (x y : Nat), s.partVal a = .ok x → s.partVal b = .ok y →
    s.ea (.mem1 a) = .ok x ∧ s.ea (.mem2 a b) = .ok (x + y)) ∧
  (∀ (s : State) (p : AddrPart) (e : Err),
    s.partVal p = .error e ↔ (∃ n, p = .reg n ∧ 8 ≤ n.toNat) ∧ e = .invalidRegister) ∧
  (∀ (s : State) (o : Operand),
    (o.isMem = false → s.valAny o = s.valRl o) ∧
    (∀ a, s.ea o = .ok a → a < s.memLen → s.valAny o = .ok (s.cell a)) ∧
    (∀ a, s.ea o = .ok a → s.memLen ≤ a → s.valAny o = .error .invalidAddress) ∧
    (∀ e, o.isMem = true → s.ea o = .error e → s.valAny o = .error e)) ∧
  (∀ (s : State) (id : BitVec 16) (t : Nat), labelTarget s.labels id.toNat = some t →
    s.targetOf (.label id) = .ok t) ∧
  (∀ (s : State) (o : Operand) (e : Err),
    (regOf o = .error e ↔ o.isReg = false ∧ e = .invalidRegister) ∧
    (s.valRl10 o = .error e ↔
      o.isRl10 = false ∧
        (((∃ n, o = .reg n) ∧ e = .invalidRegister) ∨ ((∀ n, o ≠ .reg n) ∧ e = .invalidOperand))) ∧
    (s.valRl o = .error e ↔
      o.isRl = false ∧
        (((∃ n, o = .reg n) ∧ e = .invalidRegister) ∨ ((∀ n, o ≠ .reg n) ∧ e = .invalidOperand))) ∧
    (s.ea o = .error e ↔
      o.isAddr = false ∧
        ((o.isMem = true ∧ e = .invalidRegister) ∨ (o.isMem = false ∧ e = .invalidOperand))) ∧
    (vregOf o = .error e ↔ o.isVreg = false ∧ e = .invalidOperand) ∧
    (s.targetOf o = .error e ↔
      (∀ id, o = .label id → labelTarget s.labels id.toNat = none) ∧ e = .unknownLabel))

/-- Up to 2^53 a literal is the integer it spells, and an address is the exact sum of its parts: no wrap
(10_state.md R21, 00_scope.md R9, 30_encoding.md R113, R124). -/
def Obligations.LiteralsAndAddressesAreExactIntegers : Prop :=
  (∀ n : BitVec 4, 8 ≤ n.toNat → regOfNumber n = none) ∧
  (∀ (s : State) (n m : BitVec 4) (r q : Reg) (p p' : Word) (b b' : LitBase),
    regOfNumber n = some r → regOfNumber m = some q → p.toNat ≤ 2 ^ 53 → p'.toNat ≤ 2 ^ 53 →
    s.valRl (.reg n) = .ok (Binary64.fin false (Binary64.unit * s.reg r)) ∧
    s.valRl (.imm p b) = .ok (Binary64.fin false (Binary64.unit * p.toNat)) ∧
    s.ea (.mem1 (.reg n)) = .ok (s.reg r) ∧
    s.ea (.mem1 (.imm p b)) = .ok p.toNat ∧
    s.ea (.mem2 (.reg n) (.reg m)) = .ok (s.reg r + s.reg q) ∧
    s.ea (.mem2 (.reg n) (.imm p b)) = .ok (s.reg r + p.toNat) ∧
    s.ea (.mem2 (.imm p b) (.reg n)) = .ok (p.toNat + s.reg r) ∧
    s.ea (.mem2 (.imm p b) (.imm p' b')) = .ok (p.toNat + p'.toNat))

/-! ### The sequencer -/

/-- When the word at the cursor decodes to an instruction that is no BLANK, the step is `exec` of it,
with `bp_skip` cleared before and `run_state` settled after (40_sequencer.md R142, R153). `step` asks
the hook that State holds, which is the model's choice: log entry 5. -/
def Obligations.StepRunsTheDecodedInstruction : Prop :=
  ∀ (hook : Nat → Bool) (s : State) (w : StmtWord) (i : Instr),
    s.halted = false → s.prog[s.pc]? = some w → decode w = .ok i → i.WellFormed = true →
    i ≠ .blank →
    (s.pausesHere hook = false →
      stepWith hook s = settleResult (exec i { s with bpSkip := false })) ∧
    (s.pausesHere s.hook = false →
      step s = settleResult (exec i { s with bpSkip := false }))

/-- A BLANK statement costs no step: the step goes on from the next statement without asking the hook
again. BLANK and LABEL only move the cursor and END only stops the run with success
(40_sequencer.md R146, R147, R148). -/
def Obligations.StatementKindsBlankLabelAndEnd : Prop :=
  (∀ (s : State) (id : BitVec 16),
    exec .blank s = .next { s with pc := s.pc + 1 } ∧
    exec (.label id) s = .next { s with pc := s.pc + 1 } ∧
    exec .halt s = .next { s with runState := .stoppedSuccess }) ∧
  (∀ (hook : Nat → Bool) (s : State) (w : StmtWord),
    s.halted = false → s.pausesHere hook = false → s.prog[s.pc]? = some w →
    decode w = .ok .blank →
    stepWith hook s = stepWith hook { s with pc := s.pc + 1, bpSkip := true })

/-- A hook that answers true for the cursor pauses the run and changes nothing else, and the next step
does not ask the hook (40_sequencer.md R145). -/
def Obligations.BreakpointPausesOnce : Prop :=
  ∀ (hook : Nat → Bool) (s : State),
    s.halted = false → s.bpSkip = false → hook s.pc = true →
    stepWith hook s = .next { s with bpSkip := true, runState := .paused } ∧
    stepContinues hook s = false ∧
    ∀ hook' : Nat → Bool,
      stepWith hook' { s with bpSkip := true, runState := .paused } =
        stepWith (fun _ => false) { s with bpSkip := true, runState := .paused }

/-- In a stopped state `step()` changes nothing and returns false, and so do a tick and `run()`; of the
host's entry points only `reset()` and a successful load lead out of it: an empty or rejected load
changes nothing (40_sequencer.md R152, R154, R156, 30_encoding.md R94, 70_reset_and_hazards.md R342 to
R344). The model's choices are that the host's answers to the hook are held in State, log entry 5; which
lines count as duplicates, two `END:` lines among them, log entry 10; and which characters are white
space, log entry 11. -/
def Obligations.StoppedEngineStaysAsItIs : Prop :=
  ∀ (hook : Nat → Bool) (s : State), s.halted = true →
    stepWith hook s = .next s ∧ stepContinues hook s = false ∧ s.tick hook = .next s ∧ s.run = s ∧
    s.stop.halted = true ∧ (∀ w, (s.setBitWidth w).halted = true) ∧
    (∀ l, (s.setBreakpoints l).halted = true) ∧ s.hostReset.halted = false ∧
    (∀ prog labels, (s.install prog labels).halted = false) ∧
    (∀ text, (text.all isSpace = true ∨ ∃ k, duplicateLine [] (parseText text) 1 = some k) →
      s.loadProgram text = .next s) ∧
    (∀ text t, s.loadProgram text = .next t → t = s ∨ t.halted = false)

/-- With nothing but BLANK statements left the step ends the run with success, the cursor at the end;
a word that is no instruction stops the run with UnknownInstruction, and nothing else changes
(40_sequencer.md R146, R147, R149, 60_exceptions.md R320). -/
def Obligations.StepAtTheEndAndAtAnUnknownInstruction : Prop :=
  ∀ (hook : Nat → Bool) (s : State), s.halted = false → s.pausesHere hook = false →
    ((∀ k w, s.pc ≤ k → s.prog[k]? = some w → decode w = .ok .blank) →
      stepWith hook s =
        .next { s with bpSkip := false, pc := max s.pc s.progLen, runState := .stoppedSuccess }) ∧
    (∀ w r, s.prog[s.pc]? = some w → decode w = .error r →
      stepWith hook s =
        .next { s with
          bpSkip := false
          runState := .stoppedError
          errCode := some .unknownInstruction
          errLine := s.pc + 1 })

/-- The transitions of `run_state` that a step can make (40_sequencer.md R156): a stopped state stays;
otherwise the step ends in a stopped state, or in Paused (from run mode only when the hook answers),
or goes on Running in run mode. -/
def Obligations.StepMakesOnlyTheTransitionsOfTheTable : Prop :=
  ∀ (hook : Nat → Bool) (s t : State), stepWith hook s = .next t →
    (s.halted = true → t = s) ∧
    (s.halted = false →
      (s.pausesHere hook = true → t.runState = .paused) ∧
      (s.pausesHere hook = false →
        t.runState = .stoppedSuccess ∨ t.runState = .stoppedError ∨
        (s.runState = .running ∧ t.runState = .running ∧ stepContinues hook s = true) ∨
        (s.runState ≠ .running ∧ t.runState = .paused ∧ stepContinues hook s = true)))

/-- `run()`, `stop()` and the ticks of run mode (40_sequencer.md R154, R155): `stop()` only sets the
request; the next tick of run mode consumes it without a step, and outside run mode it has no effect on a
step or a tick and the next `run()` clears it. -/
def Obligations.RunModeTicksAndStopRequests : Prop :=
  ∀ (hook : Nat → Bool) (s : State),
    s.stop = { s with stopReq := true } ∧
    ((s.runState = .loaded ∨ s.runState = .paused) →
      s.run = { s with runState := .running, stopReq := false } ∧ s.stop.run = s.run) ∧
    (s.runState = .running → s.stopReq = false → s.tick hook = stepWith hook s) ∧
    (s.runState = .running →
      s.stop.tick hook = .next { s with stopReq := false, runState := .paused }) ∧
    (s.runState ≠ .running → s.tick hook = .next s ∧ s.stop.tick hook = .next s.stop) ∧
    (∀ t, stepWith hook s = .next t → stepWith hook s.stop = .next t.stop)

/-- No step ends in a fault or a refusal, from any state. -/
def Obligations.EveryStepAnswersANextState : Prop :=
  ∀ (hook : Nat → Bool) (s : State), ∃ t, stepWith hook s = .next t

/-! ### Errors -/

/-- Errors are precise (60_exceptions.md R320, R321): an instruction that changes the run state or the
error registers is END, which changes `run_state` alone, or it has entered an error, and then nothing
else has changed. -/
def Obligations.ErrorsArePrecise : Prop :=
  ∀ (i : Instr) (s t : State), exec i s = .next t →
    (t.runState = s.runState ∧ t.errCode = s.errCode ∧ t.errLine = s.errLine) ∨
    (i = .halt ∧ t = { s with runState := .stoppedSuccess }) ∨
    ∃ e, t = { s with runState := .stoppedError, errCode := some e, errLine := s.pc + 1 }

/-- Every instruction with a wrong operand count raises ArityMismatch, whatever its operands and the
state are (30_encoding.md R130, R132). -/
def Obligations.WrongOperandCountRaisesArityMismatch : Prop :=
  ∀ (i : Instr) (o : Operands) (s : State), i.operands? = some o → o.nops.toNat ≠ i.arity →
    exec i s =
      .next { s with
        runState := .stoppedError
        errCode := some .arityMismatch
        errLine := s.pc + 1 }

/-- An instruction raises only the errors that its own rule names (the rules of 41_arithmetic.md to
46_config.md). Where the summary table of 60_exceptions.md R301 lists fewer raisers than those rules,
the model follows the rules: log entry 14. -/
def Obligations.EachErrorHasItsRaisers : Prop :=
  ∀ (i : Instr) (s t : State) (e : Err), s.errCode = none → exec i s = .next t →
    t.errCode = some e → raisedBy e i = true

/-! ### The invariant -/

/-- The invariant holds after reset, for every legal choice of the parameters, which State holds by the
model's choice: log entry 4. -/
def Obligations.InvariantHoldsAtReset : Prop :=
  State.reset.Inv ∧ ∀ p : Params, p.Legal → (State.resetOf p).Inv

/-- Every step keeps the invariant, from any state that has it: canonical memory inside `[0, MEMLEN)`,
no negative cell or lane, `MATSIZE` in range, the cursor in `[0, PROGLEN]`, sound label table, error
registers set exactly in StoppedError. -/
def Obligations.InvariantKeptByEveryStep : Prop :=
  ∀ (hook : Nat → Bool) (s t : State), s.Inv →
    (step s = .next t → t.Inv) ∧ (stepWith hook s = .next t → t.Inv)

/-- Every entry point of the host keeps the invariant, the load of a text among them
(70_reset_and_hazards.md R352). -/
def Obligations.InvariantKeptByTheHostsEntryPoints : Prop :=
  ∀ (hook : Nat → Bool) (s : State) (w : Nat) (l : List Nat) (text : List Char), s.Inv →
    s.hostReset.Inv ∧ (s.setBitWidth w).Inv ∧ s.run.Inv ∧ s.stop.Inv ∧ (s.setBreakpoints l).Inv ∧
    (∀ t, s.tick hook = .next t → t.Inv) ∧ (∀ t, s.loadProgram text = .next t → t.Inv)

/-! ### Numbers -/

/-- `fl` rounds to the nearest number with a 53-bit significand, ties to an even significand, and gives
an infinity from `2^1024` on (00_scope.md R9). Magnitudes are in units of `2^(-1074)`. -/
def Obligations.FlRoundsToNearestTiesToEven : Prop :=
  ∀ num den : Nat, 0 < den →
    HasSignificand (roundQuotient num den) ∧
    (∀ m : Nat, HasSignificand m →
      ((num : Int) - (roundQuotient num den * den : Nat)).natAbs ≤
        ((num : Int) - (m * den : Nat)).natAbs ∧
      (((num : Int) - (roundQuotient num den * den : Nat)).natAbs =
        ((num : Int) - (m * den : Nat)).natAbs →
        m = roundQuotient num den ∨
        (roundQuotient num den / 2 ^ ((roundQuotient num den).log2 - 52)) % 2 = 0)) ∧
    (∀ neg : Bool,
      Binary64.fl neg num den =
        if roundQuotient num den < 2 ^ 1024 * Binary64.unit
        then .fin neg (roundQuotient num den) else .inf neg)

/-- Up to 2^53 the rounding of an integer is the integer: masking, the zero and sign tests and the
comparison with MAXVALUE are those of exact integer arithmetic (41_arithmetic.md R184). -/
def Obligations.IntegerResultsAreExactUpTo2Pow53 : Prop :=
  ∀ (w : Width) (z : Int), z.natAbs ≤ 2 ^ 53 →
    maskNum w (Binary64.ofInt z) = (z % ((2 ^ w.bits : Nat) : Int)).toNat ∧
    (Binary64.ofInt z).isZero = decide (z = 0) ∧
    (Binary64.ofInt z).ltNum .zero = decide (z < 0) ∧
    (Binary64.ofInt z).absAbove w.maxValue = decide (2 ^ w.bits - 1 < z.natAbs)

/-- The lane operations on infinities and NaN, and on finite values (45_simd.md R271). What R271
leaves out is IEEE 754's, the model's choice of log entry 3: the sign of a result with a negative
operand, and the NaN of a division of NaN by a zero, which R271 says is not computed. No run shows
either. -/
def Obligations.LaneArithmeticFollowsTheTable : Prop :=
  (∀ a : Binary64,
    Binary64.add .nan a = .nan ∧ Binary64.add a .nan = .nan ∧ Binary64.mul .nan a = .nan ∧
    Binary64.mul a .nan = .nan ∧ Binary64.div .nan a = .nan ∧ Binary64.div a .nan = .nan) ∧
  (∀ (p q : Bool) (m : Nat),
    Binary64.add (.inf p) (.fin q m) = .inf p ∧ Binary64.add (.fin q m) (.inf p) = .inf p ∧
    Binary64.add (.inf p) (.inf p) = .inf p ∧
    (m ≠ 0 → Binary64.mul (.inf p) (.fin q m) = .inf (p != q)) ∧
    (m ≠ 0 → Binary64.mul (.fin q m) (.inf p) = .inf (q != p)) ∧
    Binary64.mul (.inf p) (.inf q) = .inf (p != q) ∧
    Binary64.mul (.inf p) (.fin q 0) = .nan ∧ Binary64.mul (.fin q 0) (.inf p) = .nan ∧
    (Binary64.div (.fin q m) (.inf p)).isZero = true ∧
    (m ≠ 0 → Binary64.div (.inf p) (.fin q m) = .inf (p != q)) ∧
    Binary64.div (.inf p) (.inf q) = .nan) ∧
  (∀ m n : Nat,
    Binary64.add (.fin false m) (.fin false n) = Binary64.fl false (m + n) 1 ∧
    Binary64.mul (.fin false m) (.fin false n) = Binary64.fl false (m * n) Binary64.unit ∧
    (n ≠ 0 →
      Binary64.div (.fin false m) (.fin false n) = Binary64.fl false (m * Binary64.unit) n))

/-! ### Arithmetic and bitwise -/

/-- ADD, SUB and MUL complete on a register destination and a register or decimal literal: the
destination gets `mask_W` of the rounded exact result, the flags come from the unmasked result, and
nothing else changes but the cursor (41_arithmetic.md R170 to R174). -/
def Obligations.AddSubMulStoreTheMaskedResult : Prop :=
  ∀ (s : State) (n : BitVec 4) (d : Reg) (src o2 : Operand) (k : Nat),
    regOfNumber n = some d → s.operandNat src = some k →
    (∃ t, exec (.add ⟨2, .reg n, src, o2⟩) s = .next t ∧
      ArithOutcome s t d (Binary64.ofInt ((s.reg d : Int) + k))) ∧
    (∃ t, exec (.sub ⟨2, .reg n, src, o2⟩) s = .next t ∧
      ArithOutcome s t d (Binary64.ofInt ((s.reg d : Int) - k))) ∧
    (∃ t, exec (.mul ⟨2, .reg n, src, o2⟩) s = .next t ∧
      ArithOutcome s t d (Binary64.ofInt ((s.reg d : Int) * k)))

/-- DIV by a source that is not 0 completes: the flags come from the rounded quotient with its fraction,
and the destination gets the floor of the exact quotient modulo 2^W (41_arithmetic.md R175, R184). -/
def Obligations.DivStoresTheFlooredQuotient : Prop :=
  ∀ (s : State) (n : BitVec 4) (d : Reg) (src o2 : Operand) (k : Nat),
    regOfNumber n = some d → s.operandNat src = some k → k ≠ 0 →
    ∃ t, exec (.div ⟨2, .reg n, src, o2⟩) s = .next t ∧
      ArithOutcome s t d (Binary64.fl false (Binary64.unit * s.reg d) k) ∧
      t.reg d = (s.reg d / k) % 2 ^ s.W.bits ∧
      t.FLAGS = decide (s.reg d = 0) ∧ t.FLAG = false

/-- The errors of the group, in the order of the tests (41_arithmetic.md R175, R183): a destination
that is no register, a source that is neither register nor decimal literal, a divisor 0. Nothing but
the run state and the error registers changes. -/
def Obligations.ArithmeticErrorsLeaveEverything : Prop :=
  ∀ (s : State) (a b o2 : Operand),
    (∀ f ∈ binaryGroup,
      (a.isReg = false → exec (f ⟨2, a, b, o2⟩) s = .next (s.enterError .invalidRegister)) ∧
      (a.isReg = true → b.isRl10 = false →
        ((∃ n, b = .reg n) → exec (f ⟨2, a, b, o2⟩) s = .next (s.enterError .invalidRegister)) ∧
        ((∀ n, b ≠ .reg n) → exec (f ⟨2, a, b, o2⟩) s = .next (s.enterError .invalidOperand)))) ∧
    (a.isReg = false →
      exec (.inc ⟨1, a, b, o2⟩) s = .next (s.enterError .invalidRegister) ∧
      exec (.dec ⟨1, a, b, o2⟩) s = .next (s.enterError .invalidRegister) ∧
      exec (.not ⟨1, a, b, o2⟩) s = .next (s.enterError .invalidRegister)) ∧
    (a.isReg = true → s.operandNat b = some 0 →
      exec (.div ⟨2, a, b, o2⟩) s = .next (s.enterError .divisionByZero)) ∧
    (∀ e, s.enterError e =
      { s with runState := .stoppedError, errCode := some e, errLine := s.pc + 1 })

/-- AND, OR and XOR complete: bitwise on the unbounded binary expansions, then as every arithmetic
instruction (41_arithmetic.md R176, R177, R178). -/
def Obligations.BitwiseActsOnTheUnboundedExpansions : Prop :=
  ∀ (s : State) (n : BitVec 4) (d : Reg) (src o2 : Operand) (k : Nat),
    regOfNumber n = some d → s.operandNat src = some k →
    (∃ t, exec (.and ⟨2, .reg n, src, o2⟩) s = .next t ∧
      ArithOutcome s t d (Binary64.ofNat (s.reg d &&& k))) ∧
    (∃ t, exec (.or ⟨2, .reg n, src, o2⟩) s = .next t ∧
      ArithOutcome s t d (Binary64.ofNat (s.reg d ||| k))) ∧
    (∃ t, exec (.xor ⟨2, .reg n, src, o2⟩) s = .next t ∧
      ArithOutcome s t d (Binary64.ofNat (s.reg d ^^^ k)))

/-- INC, DEC and NOT complete on every register, with the flags their rules give in exact integers
(41_arithmetic.md R179, R180, R181). -/
def Obligations.IncDecNotInExactIntegers : Prop :=
  ∀ (s : State) (n : BitVec 4) (d : Reg) (o1 o2 : Operand), regOfNumber n = some d →
    (∃ t, exec (.inc ⟨1, .reg n, o1, o2⟩) s = .next t ∧
      ArithOutcome s t d (Binary64.ofInt ((s.reg d : Int) + 1)) ∧
      t.reg d = (s.reg d + 1) % 2 ^ s.W.bits ∧
      t.FLAGS = false ∧ t.FLAG = false ∧ t.OVERFLOW = decide (2 ^ s.W.bits - 1 ≤ s.reg d)) ∧
    (∃ t, exec (.dec ⟨1, .reg n, o1, o2⟩) s = .next t ∧
      ArithOutcome s t d (Binary64.ofInt ((s.reg d : Int) - 1)) ∧
      t.FLAGS = decide (s.reg d = 1) ∧ t.FLAG = decide (s.reg d = 0) ∧
      (s.reg d = 0 → t.reg d = 2 ^ s.W.bits - 1)) ∧
    (∃ t, exec (.not ⟨1, .reg n, o1, o2⟩) s = .next t ∧
      ArithOutcome s t d (Binary64.ofInt (-(s.reg d : Int) - 1)) ∧
      t.reg d = 2 ^ s.W.bits - 1 - s.reg d % 2 ^ s.W.bits ∧
      t.FLAGS = false ∧ t.FLAG = true ∧ t.OVERFLOW = decide (2 ^ s.W.bits - 1 ≤ s.reg d))

/-- CMP completes: FLAGS and FLAG compare the full values as unsigned numbers, OVERFLOW and everything
else stay (41_arithmetic.md R182). -/
def Obligations.CmpComparesUnsignedAndWritesTwoFlags : Prop :=
  ∀ (s : State) (n : BitVec 4) (d : Reg) (src o2 : Operand) (k : Nat),
    regOfNumber n = some d → s.operandNat src = some k →
    exec (.cmp ⟨2, .reg n, src, o2⟩) s =
      .next { s with FLAGS := decide (s.reg d = k), FLAG := decide (s.reg d < k), pc := s.pc + 1 }

/-- ADD then SUB of the same source both complete. When the source is a literal or another register and
the sum is at most 2^53, so that nothing is rounded (R184), they restore the destination, the wrap
included; above that the values are those of the rounded results. With the destination as the source the
end is 0 (41_arithmetic.md R185, 90_conflicts.md C8). -/
def Obligations.AddThenSubRestoresTheDestination : Prop :=
  ∀ (s : State) (n : BitVec 4) (d : Reg) (src o2 : Operand) (k : Nat),
    regOfNumber n = some d → s.operandNat src = some k →
    ∃ t u, exec (.add ⟨2, .reg n, src, o2⟩) s = .next t ∧
      exec (.sub ⟨2, .reg n, src, o2⟩) t = .next u ∧
      t.runState = s.runState ∧ u.runState = s.runState ∧ u.pc = s.pc + 2 ∧
      t.reg d = maskNum s.W (Binary64.ofInt ((s.reg d : Int) + k)) ∧
      (s.reg d + k ≤ 2 ^ 53 → t.reg d = (s.reg d + k) % 2 ^ s.W.bits) ∧
      (src ≠ .reg n → u.reg d = maskNum s.W (Binary64.ofInt ((t.reg d : Int) - k))) ∧
      (src ≠ .reg n → s.reg d + k ≤ 2 ^ 53 → u.reg d = s.reg d % 2 ^ s.W.bits) ∧
      (src ≠ .reg n → s.reg d + k ≤ 2 ^ 53 → s.reg d < 2 ^ s.W.bits → u.reg d = s.reg d) ∧
      (src = .reg n → u.reg d = 0)

/-! ### Data movement -/

/-- MOV to a register completes on every readable source: the register gets `mask_W` of it
(42_data_movement.md R201). -/
def Obligations.MovToRegisterMasksTheSource : Prop :=
  ∀ (s : State) (n : BitVec 4) (d : Reg) (src o2 : Operand) (v : Binary64),
    regOfNumber n = some d → s.valAny src = .ok v →
    ∃ t, exec (.mov ⟨2, .reg n, src, o2⟩) s = .next t ∧
      t.reg d = maskNum s.W v ∧ t.pc = s.pc + 1 ∧ FrameBut [d] [] [] s t

/-- MOV to a memory cell completes on every readable source: the cell at the effective address of the
destination gets it unmasked (42_data_movement.md R201, 20_memory.md R63). -/
def Obligations.MovToMemoryStoresTheSourceWhole : Prop :=
  ∀ (s : State) (dst src o2 : Operand) (a : Nat) (v : Binary64),
    Memory.wf s.mem → s.ea dst = .ok a → a < s.memLen → s.valAny src = .ok v →
    ∃ t, exec (.mov ⟨2, dst, src, o2⟩) s = .next t ∧
      t.cell a = v ∧ t.pc = s.pc + 1 ∧ FrameBut [] [] [a] s t

/-- LOAD completes when the cell at the effective address is numeric: the register gets `mask_W` of it
(42_data_movement.md R202). -/
def Obligations.LoadMasksTheCell : Prop :=
  ∀ (s : State) (n : BitVec 4) (d : Reg) (addr o2 : Operand) (a : Nat),
    regOfNumber n = some d → s.ea addr = .ok a → a < s.memLen → s.cell a ≠ .nan →
    ∃ t, exec (.load ⟨2, .reg n, addr, o2⟩) s = .next t ∧
      t.reg d = maskNum s.W (s.cell a) ∧ t.pc = s.pc + 1 ∧ FrameBut [d] [] [] s t

/-- STORE completes: the cell at the effective address gets the value unmasked (42_data_movement.md
R203). -/
def Obligations.StoreWritesTheValueWhole : Prop :=
  ∀ (s : State) (src addr o2 : Operand) (a : Nat) (v : Binary64),
    Memory.wf s.mem → s.valRl src = .ok v → s.ea addr = .ok a → a < s.memLen →
    ∃ t, exec (.store ⟨2, src, addr, o2⟩) s = .next t ∧
      t.cell a = v ∧ t.pc = s.pc + 1 ∧ FrameBut [] [] [a] s t

/-- An access outside `[0, MEMLEN)` raises InvalidAddress, for one cell and for four, and a NaN cell
raises InvalidMemoryValue in LOAD and VLOAD. MOV checks its memory destination before it looks at the
source, so the source may be anything there (42_data_movement.md R200, R201, 20_memory.md R62, R64, 45_simd.md R275, R276). -/
def Obligations.MemoryErrorsLeaveEverything : Prop :=
  ∀ (s : State) (n m : BitVec 4) (d : Reg) (q : VReg) (src other addr o2 : Operand) (a : Nat)
    (v : Binary64),
    regOfNumber n = some d → vregOfNumber m = some q → s.valRl src = .ok v → s.ea addr = .ok a →
    (s.memLen ≤ a →
      exec (.mov ⟨2, addr, other, o2⟩) s = .next (s.enterError .invalidAddress) ∧
      exec (.mov ⟨2, .reg n, addr, o2⟩) s = .next (s.enterError .invalidAddress) ∧
      (∀ x, s.ea other = .ok x → x < s.memLen →
        exec (.mov ⟨2, other, addr, o2⟩) s = .next (s.enterError .invalidAddress)) ∧
      exec (.load ⟨2, .reg n, addr, o2⟩) s = .next (s.enterError .invalidAddress) ∧
      exec (.store ⟨2, src, addr, o2⟩) s = .next (s.enterError .invalidAddress)) ∧
    (s.memLen ≤ a + 3 →
      exec (.vload ⟨2, .vreg m, addr, o2⟩) s = .next (s.enterError .invalidAddress) ∧
      exec (.vstore ⟨2, .vreg m, addr, o2⟩) s = .next (s.enterError .invalidAddress)) ∧
    (a < s.memLen → s.cell a = .nan →
      exec (.load ⟨2, .reg n, addr, o2⟩) s = .next (s.enterError .invalidMemoryValue)) ∧
    (a + 3 < s.memLen → (∃ k, k < 4 ∧ s.cell (a + k) = .nan) →
      exec (.vload ⟨2, .vreg m, addr, o2⟩) s = .next (s.enterError .invalidMemoryValue))

/-- An operand that does not resolve makes the instruction enter the error of the resolution, operand 0
before operand 1 before operand 2 (42_data_movement.md R201 to R203, 43_stack.md R222, R223, 45_simd.md
R272 to R276, 46_config.md R291). -/
def Obligations.UnresolvedOperandsEnterTheirError : Prop :=
  ∀ (s : State) (a b c : Operand) (e : Err),
    (a.isMem = true → s.ea a = .error e →
      exec (.mov ⟨2, a, b, c⟩) s = .next (s.enterError e)) ∧
    (a.isMem = false → regOf a = .error e →
      exec (.mov ⟨2, a, b, c⟩) s = .next (s.enterError e)) ∧
    (((∃ x, s.ea a = .ok x ∧ x < s.memLen) ∨ ∃ r, regOf a = .ok r) → s.valAny b = .error e →
      exec (.mov ⟨2, a, b, c⟩) s = .next (s.enterError e)) ∧
    (regOf a = .error e →
      exec (.load ⟨2, a, b, c⟩) s = .next (s.enterError e) ∧
      exec (.pop ⟨1, a, b, c⟩) s = .next (s.enterError e)) ∧
    (∀ r, regOf a = .ok r → s.ea b = .error e →
      exec (.load ⟨2, a, b, c⟩) s = .next (s.enterError e)) ∧
    (s.valRl a = .error e →
      exec (.store ⟨2, a, b, c⟩) s = .next (s.enterError e) ∧
      exec (.push ⟨1, a, b, c⟩) s = .next (s.enterError e) ∧
      exec (.setmatsize ⟨1, a, b, c⟩) s = .next (s.enterError e)) ∧
    (∀ v, s.valRl a = .ok v → s.ea b = .error e →
      exec (.store ⟨2, a, b, c⟩) s = .next (s.enterError e)) ∧
    (vregOf a = .error e →
      exec (.vload ⟨2, a, b, c⟩) s = .next (s.enterError e) ∧
      exec (.vstore ⟨2, a, b, c⟩) s = .next (s.enterError e)) ∧
    (∀ r, vregOf a = .ok r → s.ea b = .error e →
      exec (.vload ⟨2, a, b, c⟩) s = .next (s.enterError e) ∧
      exec (.vstore ⟨2, a, b, c⟩) s = .next (s.enterError e)) ∧
    ((vregOf a = .error e ∨ (∃ r, vregOf a = .ok r) ∧ vregOf b = .error e ∨
        (∃ r, vregOf a = .ok r) ∧ (∃ r, vregOf b = .ok r) ∧ vregOf c = .error e) →
      exec (.vadd ⟨3, a, b, c⟩) s = .next (s.enterError e) ∧
      exec (.vmul ⟨3, a, b, c⟩) s = .next (s.enterError e) ∧
      exec (.vdiv ⟨3, a, b, c⟩) s = .next (s.enterError e))

/-- STORE of a register then LOAD from the same address gives the register's value back, and the cell
holds it (42_data_movement.md R205). -/
def Obligations.StoreThenLoadReturnsTheValue : Prop :=
  ∀ (s : State) (n m : BitVec 4) (rs rd : Reg) (addr o2 : Operand) (a : Nat),
    Memory.wf s.mem → regOfNumber n = some rs → regOfNumber m = some rd → s.ea addr = .ok a →
    a < s.memLen → s.reg rs ≤ s.W.maxValue →
    ∃ t u, exec (.store ⟨2, .reg n, addr, o2⟩) s = .next t ∧
      exec (.load ⟨2, .reg m, addr, o2⟩) t = .next u ∧
      u.reg rd = s.reg rs ∧ u.cell a = Binary64.ofNat (s.reg rs)

/-! ### Stack -/

/-- PUSH completes when `0 < SP <= MEMLEN`: the value goes whole into the cell below SP, and SP moves
down by one, unmasked (43_stack.md R220, R222). -/
def Obligations.PushWritesBelowTheStackPointer : Prop :=
  ∀ (s : State) (src o1 o2 : Operand) (v : Binary64),
    Memory.wf s.mem → s.valRl src = .ok v → 0 < s.sp → s.sp ≤ s.memLen →
    ∃ t, exec (.push ⟨1, src, o1, o2⟩) s = .next t ∧
      t.cell (s.sp - 1) = v ∧ t.sp = s.sp - 1 ∧ t.pc = s.pc + 1 ∧
      FrameBut [.sp] [] [s.sp - 1] s t

/-- POP completes when `SP < MEMLEN`: the register gets `mask_W` of the top cell, SP moves up by one,
and `POP SP` ends with the popped value (43_stack.md R223). -/
def Obligations.PopReadsTheTopCell : Prop :=
  ∀ (s : State) (n : BitVec 4) (d : Reg) (o1 o2 : Operand),
    s.params.Legal → regOfNumber n = some d → s.sp < s.memLen →
    ∃ t, exec (.pop ⟨1, .reg n, o1, o2⟩) s = .next t ∧
      t.reg d = maskNum s.W (s.cell s.sp) ∧ (d ≠ .sp → t.sp = s.sp + 1) ∧ t.pc = s.pc + 1 ∧
      FrameBut [d, .sp] [] [] s t

/-- DUP completes when `0 < SP < MEMLEN` (43_stack.md R224). -/
def Obligations.DupCopiesTheTopCell : Prop :=
  ∀ (s : State) (o0 o1 o2 : Operand), Memory.wf s.mem → 0 < s.sp → s.sp < s.memLen →
    ∃ t, exec (.dup ⟨0, o0, o1, o2⟩) s = .next t ∧
      t.cell (s.sp - 1) = s.cell s.sp ∧ t.sp = s.sp - 1 ∧ t.pc = s.pc + 1 ∧
      FrameBut [.sp] [] [s.sp - 1] s t

/-- SWAP and ROT complete when two, or three, cells stand at and above SP: SWAP exchanges the two, ROT
turns (a, b, c) into (b, c, a), and SP stays (43_stack.md R225, R226). -/
def Obligations.SwapAndRotPermuteTheTopCells : Prop :=
  ∀ (s : State) (o0 o1 o2 : Operand), Memory.wf s.mem →
    (s.sp + 2 ≤ s.memLen →
      ∃ t, exec (.swap ⟨0, o0, o1, o2⟩) s = .next t ∧
        t.cell s.sp = s.cell (s.sp + 1) ∧ t.cell (s.sp + 1) = s.cell s.sp ∧ t.pc = s.pc + 1 ∧
        FrameBut [] [] [s.sp, s.sp + 1] s t) ∧
    (s.sp + 3 ≤ s.memLen →
      ∃ t, exec (.rot ⟨0, o0, o1, o2⟩) s = .next t ∧
        t.cell s.sp = s.cell (s.sp + 1) ∧ t.cell (s.sp + 1) = s.cell (s.sp + 2) ∧
        t.cell (s.sp + 2) = s.cell s.sp ∧ t.pc = s.pc + 1 ∧
        FrameBut [] [] [s.sp, s.sp + 1, s.sp + 2] s t)

/-- The preconditions of the stack instructions and the errors they raise, an SP above MEMLEN included
(43_stack.md R220, R221). -/
def Obligations.StackBoundsAndTheirErrors : Prop :=
  ∀ (s : State) (n : BitVec 4) (d : Reg) (src o0 o1 o2 : Operand) (v : Binary64),
    regOfNumber n = some d → s.valRl src = .ok v →
    (s.sp = 0 → exec (.push ⟨1, src, o1, o2⟩) s = .next (s.enterError .stackOverflow)) ∧
    (s.memLen < s.sp → exec (.push ⟨1, src, o1, o2⟩) s = .next (s.enterError .invalidAddress)) ∧
    (s.memLen ≤ s.sp →
      exec (.pop ⟨1, .reg n, o1, o2⟩) s = .next (s.enterError .stackUnderflow) ∧
      exec (.dup ⟨0, o0, o1, o2⟩) s = .next (s.enterError .stackUnderflow)) ∧
    (s.sp = 0 → 0 < s.memLen →
      exec (.dup ⟨0, o0, o1, o2⟩) s = .next (s.enterError .stackOverflow)) ∧
    (s.memLen < s.sp + 2 →
      exec (.swap ⟨0, o0, o1, o2⟩) s = .next (s.enterError .stackUnderflow)) ∧
    (s.memLen < s.sp + 3 →
      exec (.rot ⟨0, o0, o1, o2⟩) s = .next (s.enterError .stackUnderflow))

/-- PUSH then POP restores SP for every SP in `[1, MEMLEN]` and yields `mask_W` of the value, so the
value itself when it is at most MAXVALUE (43_stack.md R227). -/
def Obligations.PushThenPopRestoresTheStack : Prop :=
  ∀ (s : State) (n : BitVec 4) (d : Reg) (src o1 o2 : Operand) (v : Binary64),
    s.params.Legal → Memory.wf s.mem → regOfNumber n = some d → s.valRl src = .ok v →
    0 < s.sp → s.sp ≤ s.memLen →
    ∃ t u, exec (.push ⟨1, src, o1, o2⟩) s = .next t ∧
      exec (.pop ⟨1, .reg n, o1, o2⟩) t = .next u ∧
      (d ≠ .sp → u.sp = s.sp) ∧ u.reg d = maskNum s.W v ∧
      (∀ k, k ≤ s.W.maxValue → v = Binary64.ofNat k → u.reg d = k)

/-! ### Control flow -/

/-- JMP and the eight conditional jumps: a jump that is taken goes to the target of its label, or raises
UnknownLabel when the operand is no label or its label is not defined; a jump that is not taken goes on
to the next statement without looking its label up. Nothing else changes (44_control_flow.md R240 to R250).
UnknownLabel for an id of NLABELS or more is the model's choice: log entry 21. -/
def Obligations.JumpsFollowTheConditionTable : Prop :=
  ∀ p ∈ jumpTable, ∀ (s : State) (id : BitVec 16) (o0 o1 o2 : Operand),
    (p.2 s.FLAGS s.FLAG = false →
      exec (p.1 ⟨1, o0, o1, o2⟩) s = .next { s with pc := s.pc + 1 }) ∧
    (p.2 s.FLAGS s.FLAG = true →
      (∀ t, labelTarget s.labels id.toNat = some t →
        exec (p.1 ⟨1, .label id, o1, o2⟩) s = .next { s with pc := t }) ∧
      ((∀ l, o0 = .label l → labelTarget s.labels l.toNat = none) →
        exec (p.1 ⟨1, o0, o1, o2⟩) s = .next (s.enterError .unknownLabel)))

/-- CALL completes when `0 < SP <= MEMLEN` and the label is defined: the index of the next statement goes
into the cell below SP, SP moves down by one, and the cursor goes to the label (44_control_flow.md
R258). -/
def Obligations.CallPushesTheReturnIndex : Prop :=
  ∀ (s : State) (id : BitVec 16) (target : Nat) (o1 o2 : Operand),
    Memory.wf s.mem → labelTarget s.labels id.toNat = some target → 0 < s.sp → s.sp ≤ s.memLen →
    ∃ t, exec (.call ⟨1, .label id, o1, o2⟩) s = .next t ∧
      t.cell (s.sp - 1) = Binary64.ofNat (s.pc + 1) ∧ t.sp = s.sp - 1 ∧ t.pc = target ∧
      FrameBut [.sp] [] [s.sp - 1] s t

/-- RET completes when the top cell holds an integer from 0 to PROGLEN: it becomes the cursor and SP
moves up by one (44_control_flow.md R260). -/
def Obligations.RetJumpsToThePoppedIndex : Prop :=
  ∀ (s : State) (o0 o1 o2 : Operand) (neg : Bool) (n : Nat),
    s.params.Legal → s.sp < s.memLen → s.cell s.sp = .fin neg (Binary64.unit * n) →
    (neg = false ∨ n = 0) → n ≤ s.progLen →
    ∃ t, exec (.ret ⟨0, o0, o1, o2⟩) s = .next t ∧
      t.sp = s.sp + 1 ∧ t.pc = n ∧ FrameBut [.sp] [] [] s t

/-- The errors of CALL and RET in the order of their tests; SP, memory and the cursor stay
(44_control_flow.md R258, R260). UnknownLabel for an id of NLABELS or more is the model's choice: log
entry 21. -/
def Obligations.CallAndRetErrorsLeaveEverything : Prop :=
  ∀ (s : State) (id : BitVec 16) (o0 o1 o2 : Operand),
    (s.sp = 0 → exec (.call ⟨1, o0, o1, o2⟩) s = .next (s.enterError .stackOverflow)) ∧
    (0 < s.sp → (∀ l, o0 = .label l → labelTarget s.labels l.toNat = none) →
      exec (.call ⟨1, o0, o1, o2⟩) s = .next (s.enterError .unknownLabel)) ∧
    (s.memLen < s.sp → labelTarget s.labels id.toNat ≠ none →
      exec (.call ⟨1, .label id, o1, o2⟩) s = .next (s.enterError .invalidAddress)) ∧
    (s.memLen ≤ s.sp →
      exec (.ret ⟨0, o0, o1, o2⟩) s = .next (s.enterError .stackUnderflow)) ∧
    (s.sp < s.memLen →
      (∀ neg n, n ≤ s.progLen → (neg = false ∨ n = 0) →
        s.cell s.sp ≠ .fin neg (Binary64.unit * n)) →
      exec (.ret ⟨0, o0, o1, o2⟩) s = .next (s.enterError .invalidReturnAddress))

/-- A RET in any later state that has SP and the return cell as CALL left them returns to the statement
after the CALL, with SP as before the CALL (44_control_flow.md R261). -/
def Obligations.RetReturnsAfterItsCall : Prop :=
  ∀ (s t m : State) (id : BitVec 16) (o0 o1 o2 : Operand),
    s.Inv → s.pc < s.progLen → exec (.call ⟨1, .label id, o1, o2⟩) s = .next t →
    t.runState = s.runState → s.runState ≠ .stoppedError →
    m.params = t.params → m.prog = t.prog → m.sp = t.sp → m.cell t.sp = t.cell t.sp →
    ∃ u, exec (.ret ⟨0, o0, o1, o2⟩) m = .next u ∧ u.pc = s.pc + 1 ∧ u.sp = s.sp

/-! ### The vector unit -/

/-- VADD and VMUL complete on any vector registers: each lane of the destination is the sum or product of
the same lane of the sources (45_simd.md R270, R272, R273, R284). -/
def Obligations.VaddAndVmulActLaneByLane : Prop :=
  ∀ (s : State) (nd na nb : BitVec 4) (d a b : VReg),
    vregOfNumber nd = some d → vregOfNumber na = some a → vregOfNumber nb = some b →
    (∃ t, exec (.vadd ⟨3, .vreg nd, .vreg na, .vreg nb⟩) s = .next t ∧
      t.vec d = ⟨Binary64.add (s.vec a).l0 (s.vec b).l0, Binary64.add (s.vec a).l1 (s.vec b).l1,
        Binary64.add (s.vec a).l2 (s.vec b).l2, Binary64.add (s.vec a).l3 (s.vec b).l3⟩ ∧
      t.pc = s.pc + 1 ∧ FrameBut [] [d] [] s t) ∧
    (∃ t, exec (.vmul ⟨3, .vreg nd, .vreg na, .vreg nb⟩) s = .next t ∧
      t.vec d = ⟨Binary64.mul (s.vec a).l0 (s.vec b).l0, Binary64.mul (s.vec a).l1 (s.vec b).l1,
        Binary64.mul (s.vec a).l2 (s.vec b).l2, Binary64.mul (s.vec a).l3 (s.vec b).l3⟩ ∧
      t.pc = s.pc + 1 ∧ FrameBut [] [d] [] s t)

/-- VDIV completes when no divisor lane is a zero, and raises DivisionByZero, with no lane changed, when
any is (45_simd.md R274). -/
def Obligations.VdivDividesAllLanesOrNone : Prop :=
  ∀ (s : State) (nd na nb : BitVec 4) (d a b : VReg),
    vregOfNumber nd = some d → vregOfNumber na = some a → vregOfNumber nb = some b →
    ((∀ l ∈ [(s.vec b).l0, (s.vec b).l1, (s.vec b).l2, (s.vec b).l3], ∀ neg, l ≠ .fin neg 0) →
      ∃ t, exec (.vdiv ⟨3, .vreg nd, .vreg na, .vreg nb⟩) s = .next t ∧
        t.vec d = ⟨Binary64.div (s.vec a).l0 (s.vec b).l0, Binary64.div (s.vec a).l1 (s.vec b).l1,
          Binary64.div (s.vec a).l2 (s.vec b).l2, Binary64.div (s.vec a).l3 (s.vec b).l3⟩ ∧
        t.pc = s.pc + 1 ∧ FrameBut [] [d] [] s t) ∧
    ((∃ l ∈ [(s.vec b).l0, (s.vec b).l1, (s.vec b).l2, (s.vec b).l3], ∃ neg, l = .fin neg 0) →
      exec (.vdiv ⟨3, .vreg nd, .vreg na, .vreg nb⟩) s = .next (s.enterError .divisionByZero))

/-- VLOAD completes on four numeric cells in range: lane k is the cell at address + k (45_simd.md
R275). -/
def Obligations.VloadCopiesFourCells : Prop :=
  ∀ (s : State) (nd : BitVec 4) (d : VReg) (addr o2 : Operand) (a : Nat),
    vregOfNumber nd = some d → s.ea addr = .ok a → a + 3 < s.memLen →
    (∀ k, k < 4 → s.cell (a + k) ≠ .nan) →
    ∃ t, exec (.vload ⟨2, .vreg nd, addr, o2⟩) s = .next t ∧
      t.vec d = ⟨s.cell a, s.cell (a + 1), s.cell (a + 2), s.cell (a + 3)⟩ ∧
      t.pc = s.pc + 1 ∧ FrameBut [] [d] [] s t

/-- VSTORE completes on four cells in range: the cell at address + k is lane k, exactly (45_simd.md
R276). -/
def Obligations.VstoreCopiesFourLanes : Prop :=
  ∀ (s : State) (nd : BitVec 4) (d : VReg) (addr o2 : Operand) (a : Nat),
    Memory.wf s.mem → vregOfNumber nd = some d → s.ea addr = .ok a → a + 3 < s.memLen →
    ∃ t, exec (.vstore ⟨2, .vreg nd, addr, o2⟩) s = .next t ∧
      t.cell a = (s.vec d).l0 ∧ t.cell (a + 1) = (s.vec d).l1 ∧ t.cell (a + 2) = (s.vec d).l2 ∧
      t.cell (a + 3) = (s.vec d).l3 ∧
      t.pc = s.pc + 1 ∧ FrameBut [] [] [a, a + 1, a + 2, a + 3] s t

/-! ### Configuration, reset and load -/

/-- SETMATSIZE completes on the integers 1 to 4 and raises InvalidOperand on every other value, with
`MATSIZE` unchanged (46_config.md R291). -/
def Obligations.SetmatsizeTakesOneToFour : Prop :=
  ∀ (s : State) (src o1 o2 : Operand) (v : Binary64), s.valRl src = .ok v →
    (∀ k, 1 ≤ k → k ≤ 4 → v = Binary64.ofNat k →
      exec (.setmatsize ⟨1, src, o1, o2⟩) s = .next { s with MATSIZE := k, pc := s.pc + 1 }) ∧
    ((∀ k, 1 ≤ k → k ≤ 4 → v ≠ Binary64.ofNat k) →
      exec (.setmatsize ⟨1, src, o1, o2⟩) s = .next (s.enterError .invalidOperand))

/-- Nothing reads `MATSIZE` or OVERFLOW: two runs that differ in these alone stay equal in everything
else (10_state.md R30, R34). -/
def Obligations.NothingReadsMatsizeOrOverflow : Prop :=
  ∀ (hook : Nat → Bool) (s t : State) (m : Nat) (b : Bool), stepWith hook s = .next t →
    ∃ t', stepWith hook { s with MATSIZE := m, OVERFLOW := b } = .next t' ∧
      { t' with MATSIZE := 0, OVERFLOW := false } = { t with MATSIZE := 0, OVERFLOW := false }

/-- `setBitWidth` sets a width of `WIDTHS`, and with it MAXVALUE, changes nothing else (it re-masks no
register), and ignores every other request (10_state.md R33). That `WIDTHS` is 8, 16, 32 is the model's
choice: log entry 20. -/
def Obligations.SetBitWidthChangesTheWidthAlone : Prop :=
  ∀ s : State,
    s.setBitWidth 8 = { s with W := .w8 } ∧ s.setBitWidth 16 = { s with W := .w16 } ∧
    s.setBitWidth 32 = { s with W := .w32 } ∧
    (∀ w, w = 8 ∨ w = 16 ∨ w = 32 →
      (s.setBitWidth w).W.bits = w ∧ (s.setBitWidth w).W.maxValue = 2 ^ w - 1) ∧
    (∀ w, w ≠ 8 → w ≠ 16 → w ≠ 32 → s.setBitWidth w = s)

/-- The values after `reset()`; the next step ends the empty program with success, and run mode has ended
(70_reset_and_hazards.md R341). -/
def Obligations.ResetLeavesTheStatedValues : Prop :=
  ∀ s : State, s.params.Legal →
    (∀ r, r ≠ .sp → s.hostReset.reg r = 0) ∧ s.hostReset.sp = s.memLen - 1 ∧
    s.hostReset.FLAGS = false ∧ s.hostReset.FLAG = false ∧ s.hostReset.OVERFLOW = false ∧
    (∀ r, s.hostReset.vec r =
      ⟨.fin false 0, .fin false 0, .fin false 0, .fin false 0⟩) ∧
    (∀ a, s.hostReset.cell a = .fin false 0) ∧
    s.hostReset.W.bits = 32 ∧ s.hostReset.W.maxValue = 2 ^ 32 - 1 ∧ s.hostReset.MATSIZE = 4 ∧
    s.hostReset.pc = 0 ∧ s.hostReset.progLen = 0 ∧ s.hostReset.prog = [] ∧
    (∀ id, labelTarget s.hostReset.labels id = none) ∧
    s.hostReset.runState = .loaded ∧ s.hostReset.errNumber = 0 ∧ s.hostReset.errLine = 0 ∧
    s.hostReset.bpSkip = false ∧ s.hostReset.stopReq = false ∧ s.hostReset.memLen = s.memLen ∧
    (∀ hook : Nat → Bool, hook 0 = false →
      stepWith hook s.hostReset = .next { s.hostReset with runState := .stoppedSuccess }) ∧
    (∀ hook : Nat → Bool, s.hostReset.tick hook = .next s.hostReset)

/-- An empty text and a text with a duplicate label change nothing; any other text within the capacities
is installed as after a reset that keeps the width, one statement for each line. Where the parameters
are legal, the word of each line decodes to what the line spells, and the id of a label name leads to the
line that defines it (70_reset_and_hazards.md R342, R343, R344, 30_encoding.md R91 to R104, 10_state.md
R41). Which characters are white space and which lines count as
duplicates are the model's reading: log entries 10, 11. -/
def Obligations.LoadInstallsOneStatementPerLine : Prop :=
  ∀ (s : State) (text : List Char),
    (text.all isSpace = true → s.loadProgram text = .next s) ∧
    (∀ k, duplicateLine [] (parseText text) 1 = some k → s.loadProgram text = .next s) ∧
    (text.all isSpace = false → duplicateLine [] (parseText text) 1 = none →
      (textLines text).length ≤ s.params.progMax →
      (labelNames (parseText text)).length ≤ s.params.nLabels →
      ∃ t, s.loadProgram text = .next t ∧ t.progLen = (textLines text).length ∧
        t = { s.hostReset with W := s.W, prog := t.prog, labels := t.labels } ∧
        (s.params.Legal → ∀ (i : Nat) (line : List Char), (textLines text)[i]? = some line →
          ∃ w, t.prog[i]? = some w ∧ LineBecomes text t.labels (statementOf line) w))

/-! ### Whole-machine rules -/

/-- Each kind of state has its writers, and no other instruction changes it: the flags (10_state.md R31;
OVERFLOW not by CMP, R30), the cells (20_memory.md R67), the vector registers (10_state.md R38), the
scalar registers. -/
def Obligations.EachKindOfStateHasItsWriters : Prop :=
  ∀ (i : Instr) (s t : State), exec i s = .next t →
    (writesFlags i = false → FlagsKept s t) ∧ (∀ o, i = .cmp o → t.OVERFLOW = s.OVERFLOW) ∧
    (writesCells i = false → CellsKeptBut [] s t) ∧
    (writesVectors i = false → VecsKeptBut [] s t) ∧
    (writesRegs i = false → RegsKeptBut [] s t)

/-- No step changes the program store, the label table, the width, the parameters or the stop request
(20_memory.md R75, 10_state.md R32, R40, R41). That State holds the parameters and the answers of the
hook is the model's choice: log entries 4, 5. -/
def Obligations.NoStepChangesTheProgramOrTheWidth : Prop :=
  ∀ (hook : Nat → Bool) (s t : State), stepWith hook s = .next t →
    t.prog = s.prog ∧ t.labels = s.labels ∧ t.W = s.W ∧ t.params = s.params ∧
    t.stopReq = s.stopReq ∧ t.breakpoints = s.breakpoints

/-- A register that an instruction changes holds at most MAXVALUE afterwards; SP alone may be moved by
one, unmasked, by the stack and call instructions (10_state.md R23, R25). -/
def Obligations.ChangedRegistersAreMasked : Prop :=
  ∀ (i : Instr) (s t : State) (r : Reg), s.Inv → exec i s = .next t → t.reg r ≠ s.reg r →
    t.reg r ≤ s.W.maxValue ∨
    (r = .sp ∧
      ((t.sp = s.sp + 1 ∧ t.sp ≤ s.memLen ∧ ((∃ o, i = .pop o) ∨ ∃ o, i = .ret o)) ∨
       (t.sp + 1 = s.sp ∧ t.sp < s.memLen ∧
        ((∃ o, i = .push o) ∨ (∃ o, i = .dup o) ∨ ∃ o, i = .call o))))
end

