-- ==== Sys2Proof/Laws/State.lean ====
section
/-! SUPPORT. One lemma per field per update of State, so that no later proof unfolds a record update; then
what the readers `reg`, `vec` and `cell` see after each update. -/

namespace Sys2Proof.Machine

/-! #### setReg -/

@[simp] theorem State.setReg_params (s : State) (r : Reg) (w : RegWord) :
    (s.setReg r w).params = s.params := rfl

@[simp] theorem State.setReg_x (s : State) (r : Reg) (w : RegWord) :
    (s.setReg r w).x = s.x.set r w := rfl

@[simp] theorem State.setReg_pc (s : State) (r : Reg) (w : RegWord) :
    (s.setReg r w).pc = s.pc := rfl

@[simp] theorem State.setReg_FLAGS (s : State) (r : Reg) (w : RegWord) :
    (s.setReg r w).FLAGS = s.FLAGS := rfl

@[simp] theorem State.setReg_FLAG (s : State) (r : Reg) (w : RegWord) :
    (s.setReg r w).FLAG = s.FLAG := rfl

@[simp] theorem State.setReg_OVERFLOW (s : State) (r : Reg) (w : RegWord) :
    (s.setReg r w).OVERFLOW = s.OVERFLOW := rfl

@[simp] theorem State.setReg_v (s : State) (r : Reg) (w : RegWord) :
    (s.setReg r w).v = s.v := rfl

@[simp] theorem State.setReg_mem (s : State) (r : Reg) (w : RegWord) :
    (s.setReg r w).mem = s.mem := rfl

@[simp] theorem State.setReg_prog (s : State) (r : Reg) (w : RegWord) :
    (s.setReg r w).prog = s.prog := rfl

@[simp] theorem State.setReg_labels (s : State) (r : Reg) (w : RegWord) :
    (s.setReg r w).labels = s.labels := rfl

@[simp] theorem State.setReg_W (s : State) (r : Reg) (w : RegWord) :
    (s.setReg r w).W = s.W := rfl

@[simp] theorem State.setReg_MATSIZE (s : State) (r : Reg) (w : RegWord) :
    (s.setReg r w).MATSIZE = s.MATSIZE := rfl

@[simp] theorem State.setReg_runState (s : State) (r : Reg) (w : RegWord) :
    (s.setReg r w).runState = s.runState := rfl

@[simp] theorem State.setReg_errCode (s : State) (r : Reg) (w : RegWord) :
    (s.setReg r w).errCode = s.errCode := rfl

@[simp] theorem State.setReg_errLine (s : State) (r : Reg) (w : RegWord) :
    (s.setReg r w).errLine = s.errLine := rfl

@[simp] theorem State.setReg_bpSkip (s : State) (r : Reg) (w : RegWord) :
    (s.setReg r w).bpSkip = s.bpSkip := rfl

@[simp] theorem State.setReg_stopReq (s : State) (r : Reg) (w : RegWord) :
    (s.setReg r w).stopReq = s.stopReq := rfl

@[simp] theorem State.setReg_breakpoints (s : State) (r : Reg) (w : RegWord) :
    (s.setReg r w).breakpoints = s.breakpoints := rfl

@[simp] theorem State.setReg_vec (s : State) (r : Reg) (w : RegWord) (q : VReg) :
    (s.setReg r w).vec q = s.vec q := rfl

@[simp] theorem State.setReg_cell (s : State) (r : Reg) (w : RegWord) (q : Nat) :
    (s.setReg r w).cell q = s.cell q := rfl

@[simp] theorem State.setReg_memLen (s : State) (r : Reg) (w : RegWord) :
    (s.setReg r w).memLen = s.memLen := rfl

@[simp] theorem State.setReg_progLen (s : State) (r : Reg) (w : RegWord) :
    (s.setReg r w).progLen = s.progLen := rfl

/-! #### writeReg -/

@[simp] theorem State.writeReg_params (s : State) (r : Reg) (n : Binary64) :
    (s.writeReg r n).params = s.params := rfl

@[simp] theorem State.writeReg_x (s : State) (r : Reg) (n : Binary64) :
    (s.writeReg r n).x = s.x.set r (BitVec.ofNat 32 (maskNum s.W n)) := rfl

@[simp] theorem State.writeReg_pc (s : State) (r : Reg) (n : Binary64) :
    (s.writeReg r n).pc = s.pc := rfl

@[simp] theorem State.writeReg_FLAGS (s : State) (r : Reg) (n : Binary64) :
    (s.writeReg r n).FLAGS = s.FLAGS := rfl

@[simp] theorem State.writeReg_FLAG (s : State) (r : Reg) (n : Binary64) :
    (s.writeReg r n).FLAG = s.FLAG := rfl

@[simp] theorem State.writeReg_OVERFLOW (s : State) (r : Reg) (n : Binary64) :
    (s.writeReg r n).OVERFLOW = s.OVERFLOW := rfl

@[simp] theorem State.writeReg_v (s : State) (r : Reg) (n : Binary64) :
    (s.writeReg r n).v = s.v := rfl

@[simp] theorem State.writeReg_mem (s : State) (r : Reg) (n : Binary64) :
    (s.writeReg r n).mem = s.mem := rfl

@[simp] theorem State.writeReg_prog (s : State) (r : Reg) (n : Binary64) :
    (s.writeReg r n).prog = s.prog := rfl

@[simp] theorem State.writeReg_labels (s : State) (r : Reg) (n : Binary64) :
    (s.writeReg r n).labels = s.labels := rfl

@[simp] theorem State.writeReg_W (s : State) (r : Reg) (n : Binary64) :
    (s.writeReg r n).W = s.W := rfl

@[simp] theorem State.writeReg_MATSIZE (s : State) (r : Reg) (n : Binary64) :
    (s.writeReg r n).MATSIZE = s.MATSIZE := rfl

@[simp] theorem State.writeReg_runState (s : State) (r : Reg) (n : Binary64) :
    (s.writeReg r n).runState = s.runState := rfl

@[simp] theorem State.writeReg_errCode (s : State) (r : Reg) (n : Binary64) :
    (s.writeReg r n).errCode = s.errCode := rfl

@[simp] theorem State.writeReg_errLine (s : State) (r : Reg) (n : Binary64) :
    (s.writeReg r n).errLine = s.errLine := rfl

@[simp] theorem State.writeReg_bpSkip (s : State) (r : Reg) (n : Binary64) :
    (s.writeReg r n).bpSkip = s.bpSkip := rfl

@[simp] theorem State.writeReg_stopReq (s : State) (r : Reg) (n : Binary64) :
    (s.writeReg r n).stopReq = s.stopReq := rfl

@[simp] theorem State.writeReg_breakpoints (s : State) (r : Reg) (n : Binary64) :
    (s.writeReg r n).breakpoints = s.breakpoints := rfl

@[simp] theorem State.writeReg_vec (s : State) (r : Reg) (n : Binary64) (q : VReg) :
    (s.writeReg r n).vec q = s.vec q := rfl

@[simp] theorem State.writeReg_cell (s : State) (r : Reg) (n : Binary64) (q : Nat) :
    (s.writeReg r n).cell q = s.cell q := rfl

@[simp] theorem State.writeReg_memLen (s : State) (r : Reg) (n : Binary64) :
    (s.writeReg r n).memLen = s.memLen := rfl

@[simp] theorem State.writeReg_progLen (s : State) (r : Reg) (n : Binary64) :
    (s.writeReg r n).progLen = s.progLen := rfl

/-! #### setSP -/

@[simp] theorem State.setSP_params (s : State) (n : Nat) :
    (s.setSP n).params = s.params := rfl

@[simp] theorem State.setSP_x (s : State) (n : Nat) :
    (s.setSP n).x = s.x.set .sp (BitVec.ofNat 32 n) := rfl

@[simp] theorem State.setSP_pc (s : State) (n : Nat) :
    (s.setSP n).pc = s.pc := rfl

@[simp] theorem State.setSP_FLAGS (s : State) (n : Nat) :
    (s.setSP n).FLAGS = s.FLAGS := rfl

@[simp] theorem State.setSP_FLAG (s : State) (n : Nat) :
    (s.setSP n).FLAG = s.FLAG := rfl

@[simp] theorem State.setSP_OVERFLOW (s : State) (n : Nat) :
    (s.setSP n).OVERFLOW = s.OVERFLOW := rfl

@[simp] theorem State.setSP_v (s : State) (n : Nat) :
    (s.setSP n).v = s.v := rfl

@[simp] theorem State.setSP_mem (s : State) (n : Nat) :
    (s.setSP n).mem = s.mem := rfl

@[simp] theorem State.setSP_prog (s : State) (n : Nat) :
    (s.setSP n).prog = s.prog := rfl

@[simp] theorem State.setSP_labels (s : State) (n : Nat) :
    (s.setSP n).labels = s.labels := rfl

@[simp] theorem State.setSP_W (s : State) (n : Nat) :
    (s.setSP n).W = s.W := rfl

@[simp] theorem State.setSP_MATSIZE (s : State) (n : Nat) :
    (s.setSP n).MATSIZE = s.MATSIZE := rfl

@[simp] theorem State.setSP_runState (s : State) (n : Nat) :
    (s.setSP n).runState = s.runState := rfl

@[simp] theorem State.setSP_errCode (s : State) (n : Nat) :
    (s.setSP n).errCode = s.errCode := rfl

@[simp] theorem State.setSP_errLine (s : State) (n : Nat) :
    (s.setSP n).errLine = s.errLine := rfl

@[simp] theorem State.setSP_bpSkip (s : State) (n : Nat) :
    (s.setSP n).bpSkip = s.bpSkip := rfl

@[simp] theorem State.setSP_stopReq (s : State) (n : Nat) :
    (s.setSP n).stopReq = s.stopReq := rfl

@[simp] theorem State.setSP_breakpoints (s : State) (n : Nat) :
    (s.setSP n).breakpoints = s.breakpoints := rfl

@[simp] theorem State.setSP_vec (s : State) (n : Nat) (q : VReg) :
    (s.setSP n).vec q = s.vec q := rfl

@[simp] theorem State.setSP_cell (s : State) (n : Nat) (q : Nat) :
    (s.setSP n).cell q = s.cell q := rfl

@[simp] theorem State.setSP_memLen (s : State) (n : Nat) :
    (s.setSP n).memLen = s.memLen := rfl

@[simp] theorem State.setSP_progLen (s : State) (n : Nat) :
    (s.setSP n).progLen = s.progLen := rfl

/-! #### setVec -/

@[simp] theorem State.setVec_params (s : State) (r : VReg) (l : Lanes) :
    (s.setVec r l).params = s.params := rfl

@[simp] theorem State.setVec_x (s : State) (r : VReg) (l : Lanes) :
    (s.setVec r l).x = s.x := rfl

@[simp] theorem State.setVec_pc (s : State) (r : VReg) (l : Lanes) :
    (s.setVec r l).pc = s.pc := rfl

@[simp] theorem State.setVec_FLAGS (s : State) (r : VReg) (l : Lanes) :
    (s.setVec r l).FLAGS = s.FLAGS := rfl

@[simp] theorem State.setVec_FLAG (s : State) (r : VReg) (l : Lanes) :
    (s.setVec r l).FLAG = s.FLAG := rfl

@[simp] theorem State.setVec_OVERFLOW (s : State) (r : VReg) (l : Lanes) :
    (s.setVec r l).OVERFLOW = s.OVERFLOW := rfl

@[simp] theorem State.setVec_v (s : State) (r : VReg) (l : Lanes) :
    (s.setVec r l).v = s.v.set r l := rfl

@[simp] theorem State.setVec_mem (s : State) (r : VReg) (l : Lanes) :
    (s.setVec r l).mem = s.mem := rfl

@[simp] theorem State.setVec_prog (s : State) (r : VReg) (l : Lanes) :
    (s.setVec r l).prog = s.prog := rfl

@[simp] theorem State.setVec_labels (s : State) (r : VReg) (l : Lanes) :
    (s.setVec r l).labels = s.labels := rfl

@[simp] theorem State.setVec_W (s : State) (r : VReg) (l : Lanes) :
    (s.setVec r l).W = s.W := rfl

@[simp] theorem State.setVec_MATSIZE (s : State) (r : VReg) (l : Lanes) :
    (s.setVec r l).MATSIZE = s.MATSIZE := rfl

@[simp] theorem State.setVec_runState (s : State) (r : VReg) (l : Lanes) :
    (s.setVec r l).runState = s.runState := rfl

@[simp] theorem State.setVec_errCode (s : State) (r : VReg) (l : Lanes) :
    (s.setVec r l).errCode = s.errCode := rfl

@[simp] theorem State.setVec_errLine (s : State) (r : VReg) (l : Lanes) :
    (s.setVec r l).errLine = s.errLine := rfl

@[simp] theorem State.setVec_bpSkip (s : State) (r : VReg) (l : Lanes) :
    (s.setVec r l).bpSkip = s.bpSkip := rfl

@[simp] theorem State.setVec_stopReq (s : State) (r : VReg) (l : Lanes) :
    (s.setVec r l).stopReq = s.stopReq := rfl

@[simp] theorem State.setVec_breakpoints (s : State) (r : VReg) (l : Lanes) :
    (s.setVec r l).breakpoints = s.breakpoints := rfl

@[simp] theorem State.setVec_reg (s : State) (r : VReg) (l : Lanes) (q : Reg) :
    (s.setVec r l).reg q = s.reg q := rfl

@[simp] theorem State.setVec_cell (s : State) (r : VReg) (l : Lanes) (q : Nat) :
    (s.setVec r l).cell q = s.cell q := rfl

@[simp] theorem State.setVec_memLen (s : State) (r : VReg) (l : Lanes) :
    (s.setVec r l).memLen = s.memLen := rfl

@[simp] theorem State.setVec_progLen (s : State) (r : VReg) (l : Lanes) :
    (s.setVec r l).progLen = s.progLen := rfl

/-! #### putCell -/

@[simp] theorem State.putCell_params (s : State) (a : Nat) (n : Binary64) :
    (s.putCell a n).params = s.params := rfl

@[simp] theorem State.putCell_x (s : State) (a : Nat) (n : Binary64) :
    (s.putCell a n).x = s.x := rfl

@[simp] theorem State.putCell_pc (s : State) (a : Nat) (n : Binary64) :
    (s.putCell a n).pc = s.pc := rfl

@[simp] theorem State.putCell_FLAGS (s : State) (a : Nat) (n : Binary64) :
    (s.putCell a n).FLAGS = s.FLAGS := rfl

@[simp] theorem State.putCell_FLAG (s : State) (a : Nat) (n : Binary64) :
    (s.putCell a n).FLAG = s.FLAG := rfl

@[simp] theorem State.putCell_OVERFLOW (s : State) (a : Nat) (n : Binary64) :
    (s.putCell a n).OVERFLOW = s.OVERFLOW := rfl

@[simp] theorem State.putCell_v (s : State) (a : Nat) (n : Binary64) :
    (s.putCell a n).v = s.v := rfl

@[simp] theorem State.putCell_mem (s : State) (a : Nat) (n : Binary64) :
    (s.putCell a n).mem = Memory.write s.mem a n := rfl

@[simp] theorem State.putCell_prog (s : State) (a : Nat) (n : Binary64) :
    (s.putCell a n).prog = s.prog := rfl

@[simp] theorem State.putCell_labels (s : State) (a : Nat) (n : Binary64) :
    (s.putCell a n).labels = s.labels := rfl

@[simp] theorem State.putCell_W (s : State) (a : Nat) (n : Binary64) :
    (s.putCell a n).W = s.W := rfl

@[simp] theorem State.putCell_MATSIZE (s : State) (a : Nat) (n : Binary64) :
    (s.putCell a n).MATSIZE = s.MATSIZE := rfl

@[simp] theorem State.putCell_runState (s : State) (a : Nat) (n : Binary64) :
    (s.putCell a n).runState = s.runState := rfl

@[simp] theorem State.putCell_errCode (s : State) (a : Nat) (n : Binary64) :
    (s.putCell a n).errCode = s.errCode := rfl

@[simp] theorem State.putCell_errLine (s : State) (a : Nat) (n : Binary64) :
    (s.putCell a n).errLine = s.errLine := rfl

@[simp] theorem State.putCell_bpSkip (s : State) (a : Nat) (n : Binary64) :
    (s.putCell a n).bpSkip = s.bpSkip := rfl

@[simp] theorem State.putCell_stopReq (s : State) (a : Nat) (n : Binary64) :
    (s.putCell a n).stopReq = s.stopReq := rfl

@[simp] theorem State.putCell_breakpoints (s : State) (a : Nat) (n : Binary64) :
    (s.putCell a n).breakpoints = s.breakpoints := rfl

@[simp] theorem State.putCell_reg (s : State) (a : Nat) (n : Binary64) (q : Reg) :
    (s.putCell a n).reg q = s.reg q := rfl

@[simp] theorem State.putCell_vec (s : State) (a : Nat) (n : Binary64) (q : VReg) :
    (s.putCell a n).vec q = s.vec q := rfl

@[simp] theorem State.putCell_memLen (s : State) (a : Nat) (n : Binary64) :
    (s.putCell a n).memLen = s.memLen := rfl

@[simp] theorem State.putCell_progLen (s : State) (a : Nat) (n : Binary64) :
    (s.putCell a n).progLen = s.progLen := rfl

/-! #### setPc -/

@[simp] theorem State.setPc_params (s : State) (n : Nat) :
    (s.setPc n).params = s.params := rfl

@[simp] theorem State.setPc_x (s : State) (n : Nat) :
    (s.setPc n).x = s.x := rfl

@[simp] theorem State.setPc_pc (s : State) (n : Nat) :
    (s.setPc n).pc = n := rfl

@[simp] theorem State.setPc_FLAGS (s : State) (n : Nat) :
    (s.setPc n).FLAGS = s.FLAGS := rfl

@[simp] theorem State.setPc_FLAG (s : State) (n : Nat) :
    (s.setPc n).FLAG = s.FLAG := rfl

@[simp] theorem State.setPc_OVERFLOW (s : State) (n : Nat) :
    (s.setPc n).OVERFLOW = s.OVERFLOW := rfl

@[simp] theorem State.setPc_v (s : State) (n : Nat) :
    (s.setPc n).v = s.v := rfl

@[simp] theorem State.setPc_mem (s : State) (n : Nat) :
    (s.setPc n).mem = s.mem := rfl

@[simp] theorem State.setPc_prog (s : State) (n : Nat) :
    (s.setPc n).prog = s.prog := rfl

@[simp] theorem State.setPc_labels (s : State) (n : Nat) :
    (s.setPc n).labels = s.labels := rfl

@[simp] theorem State.setPc_W (s : State) (n : Nat) :
    (s.setPc n).W = s.W := rfl

@[simp] theorem State.setPc_MATSIZE (s : State) (n : Nat) :
    (s.setPc n).MATSIZE = s.MATSIZE := rfl

@[simp] theorem State.setPc_runState (s : State) (n : Nat) :
    (s.setPc n).runState = s.runState := rfl

@[simp] theorem State.setPc_errCode (s : State) (n : Nat) :
    (s.setPc n).errCode = s.errCode := rfl

@[simp] theorem State.setPc_errLine (s : State) (n : Nat) :
    (s.setPc n).errLine = s.errLine := rfl

@[simp] theorem State.setPc_bpSkip (s : State) (n : Nat) :
    (s.setPc n).bpSkip = s.bpSkip := rfl

@[simp] theorem State.setPc_stopReq (s : State) (n : Nat) :
    (s.setPc n).stopReq = s.stopReq := rfl

@[simp] theorem State.setPc_breakpoints (s : State) (n : Nat) :
    (s.setPc n).breakpoints = s.breakpoints := rfl

@[simp] theorem State.setPc_reg (s : State) (n : Nat) (q : Reg) :
    (s.setPc n).reg q = s.reg q := rfl

@[simp] theorem State.setPc_vec (s : State) (n : Nat) (q : VReg) :
    (s.setPc n).vec q = s.vec q := rfl

@[simp] theorem State.setPc_cell (s : State) (n : Nat) (q : Nat) :
    (s.setPc n).cell q = s.cell q := rfl

@[simp] theorem State.setPc_memLen (s : State) (n : Nat) :
    (s.setPc n).memLen = s.memLen := rfl

@[simp] theorem State.setPc_progLen (s : State) (n : Nat) :
    (s.setPc n).progLen = s.progLen := rfl

/-! #### advance -/

@[simp] theorem State.advance_params (s : State) :
    (s.advance).params = s.params := rfl

@[simp] theorem State.advance_x (s : State) :
    (s.advance).x = s.x := rfl

@[simp] theorem State.advance_pc (s : State) :
    (s.advance).pc = s.pc + 1 := rfl

@[simp] theorem State.advance_FLAGS (s : State) :
    (s.advance).FLAGS = s.FLAGS := rfl

@[simp] theorem State.advance_FLAG (s : State) :
    (s.advance).FLAG = s.FLAG := rfl

@[simp] theorem State.advance_OVERFLOW (s : State) :
    (s.advance).OVERFLOW = s.OVERFLOW := rfl

@[simp] theorem State.advance_v (s : State) :
    (s.advance).v = s.v := rfl

@[simp] theorem State.advance_mem (s : State) :
    (s.advance).mem = s.mem := rfl

@[simp] theorem State.advance_prog (s : State) :
    (s.advance).prog = s.prog := rfl

@[simp] theorem State.advance_labels (s : State) :
    (s.advance).labels = s.labels := rfl

@[simp] theorem State.advance_W (s : State) :
    (s.advance).W = s.W := rfl

@[simp] theorem State.advance_MATSIZE (s : State) :
    (s.advance).MATSIZE = s.MATSIZE := rfl

@[simp] theorem State.advance_runState (s : State) :
    (s.advance).runState = s.runState := rfl

@[simp] theorem State.advance_errCode (s : State) :
    (s.advance).errCode = s.errCode := rfl

@[simp] theorem State.advance_errLine (s : State) :
    (s.advance).errLine = s.errLine := rfl

@[simp] theorem State.advance_bpSkip (s : State) :
    (s.advance).bpSkip = s.bpSkip := rfl

@[simp] theorem State.advance_stopReq (s : State) :
    (s.advance).stopReq = s.stopReq := rfl

@[simp] theorem State.advance_breakpoints (s : State) :
    (s.advance).breakpoints = s.breakpoints := rfl

@[simp] theorem State.advance_reg (s : State) (q : Reg) :
    (s.advance).reg q = s.reg q := rfl

@[simp] theorem State.advance_vec (s : State) (q : VReg) :
    (s.advance).vec q = s.vec q := rfl

@[simp] theorem State.advance_cell (s : State) (q : Nat) :
    (s.advance).cell q = s.cell q := rfl

@[simp] theorem State.advance_memLen (s : State) :
    (s.advance).memLen = s.memLen := rfl

@[simp] theorem State.advance_progLen (s : State) :
    (s.advance).progLen = s.progLen := rfl

/-! #### setFlags -/

@[simp] theorem State.setFlags_params (s : State) (z n o : Bool) :
    (s.setFlags z n o).params = s.params := rfl

@[simp] theorem State.setFlags_x (s : State) (z n o : Bool) :
    (s.setFlags z n o).x = s.x := rfl

@[simp] theorem State.setFlags_pc (s : State) (z n o : Bool) :
    (s.setFlags z n o).pc = s.pc := rfl

@[simp] theorem State.setFlags_FLAGS (s : State) (z n o : Bool) :
    (s.setFlags z n o).FLAGS = z := rfl

@[simp] theorem State.setFlags_FLAG (s : State) (z n o : Bool) :
    (s.setFlags z n o).FLAG = n := rfl

@[simp] theorem State.setFlags_OVERFLOW (s : State) (z n o : Bool) :
    (s.setFlags z n o).OVERFLOW = o := rfl

@[simp] theorem State.setFlags_v (s : State) (z n o : Bool) :
    (s.setFlags z n o).v = s.v := rfl

@[simp] theorem State.setFlags_mem (s : State) (z n o : Bool) :
    (s.setFlags z n o).mem = s.mem := rfl

@[simp] theorem State.setFlags_prog (s : State) (z n o : Bool) :
    (s.setFlags z n o).prog = s.prog := rfl

@[simp] theorem State.setFlags_labels (s : State) (z n o : Bool) :
    (s.setFlags z n o).labels = s.labels := rfl

@[simp] theorem State.setFlags_W (s : State) (z n o : Bool) :
    (s.setFlags z n o).W = s.W := rfl

@[simp] theorem State.setFlags_MATSIZE (s : State) (z n o : Bool) :
    (s.setFlags z n o).MATSIZE = s.MATSIZE := rfl

@[simp] theorem State.setFlags_runState (s : State) (z n o : Bool) :
    (s.setFlags z n o).runState = s.runState := rfl

@[simp] theorem State.setFlags_errCode (s : State) (z n o : Bool) :
    (s.setFlags z n o).errCode = s.errCode := rfl

@[simp] theorem State.setFlags_errLine (s : State) (z n o : Bool) :
    (s.setFlags z n o).errLine = s.errLine := rfl

@[simp] theorem State.setFlags_bpSkip (s : State) (z n o : Bool) :
    (s.setFlags z n o).bpSkip = s.bpSkip := rfl

@[simp] theorem State.setFlags_stopReq (s : State) (z n o : Bool) :
    (s.setFlags z n o).stopReq = s.stopReq := rfl

@[simp] theorem State.setFlags_breakpoints (s : State) (z n o : Bool) :
    (s.setFlags z n o).breakpoints = s.breakpoints := rfl

@[simp] theorem State.setFlags_reg (s : State) (z n o : Bool) (q : Reg) :
    (s.setFlags z n o).reg q = s.reg q := rfl

@[simp] theorem State.setFlags_vec (s : State) (z n o : Bool) (q : VReg) :
    (s.setFlags z n o).vec q = s.vec q := rfl

@[simp] theorem State.setFlags_cell (s : State) (z n o : Bool) (q : Nat) :
    (s.setFlags z n o).cell q = s.cell q := rfl

@[simp] theorem State.setFlags_memLen (s : State) (z n o : Bool) :
    (s.setFlags z n o).memLen = s.memLen := rfl

@[simp] theorem State.setFlags_progLen (s : State) (z n o : Bool) :
    (s.setFlags z n o).progLen = s.progLen := rfl

/-! #### updateFlags -/

@[simp] theorem State.updateFlags_params (s : State) (n : Binary64) :
    (s.updateFlags n).params = s.params := rfl

@[simp] theorem State.updateFlags_x (s : State) (n : Binary64) :
    (s.updateFlags n).x = s.x := rfl

@[simp] theorem State.updateFlags_pc (s : State) (n : Binary64) :
    (s.updateFlags n).pc = s.pc := rfl

@[simp] theorem State.updateFlags_FLAGS (s : State) (n : Binary64) :
    (s.updateFlags n).FLAGS = n.isZero := rfl

@[simp] theorem State.updateFlags_FLAG (s : State) (n : Binary64) :
    (s.updateFlags n).FLAG = n.ltNum .zero := rfl

@[simp] theorem State.updateFlags_OVERFLOW (s : State) (n : Binary64) :
    (s.updateFlags n).OVERFLOW = n.absAbove s.W.maxValue := rfl

@[simp] theorem State.updateFlags_v (s : State) (n : Binary64) :
    (s.updateFlags n).v = s.v := rfl

@[simp] theorem State.updateFlags_mem (s : State) (n : Binary64) :
    (s.updateFlags n).mem = s.mem := rfl

@[simp] theorem State.updateFlags_prog (s : State) (n : Binary64) :
    (s.updateFlags n).prog = s.prog := rfl

@[simp] theorem State.updateFlags_labels (s : State) (n : Binary64) :
    (s.updateFlags n).labels = s.labels := rfl

@[simp] theorem State.updateFlags_W (s : State) (n : Binary64) :
    (s.updateFlags n).W = s.W := rfl

@[simp] theorem State.updateFlags_MATSIZE (s : State) (n : Binary64) :
    (s.updateFlags n).MATSIZE = s.MATSIZE := rfl

@[simp] theorem State.updateFlags_runState (s : State) (n : Binary64) :
    (s.updateFlags n).runState = s.runState := rfl

@[simp] theorem State.updateFlags_errCode (s : State) (n : Binary64) :
    (s.updateFlags n).errCode = s.errCode := rfl

@[simp] theorem State.updateFlags_errLine (s : State) (n : Binary64) :
    (s.updateFlags n).errLine = s.errLine := rfl

@[simp] theorem State.updateFlags_bpSkip (s : State) (n : Binary64) :
    (s.updateFlags n).bpSkip = s.bpSkip := rfl

@[simp] theorem State.updateFlags_stopReq (s : State) (n : Binary64) :
    (s.updateFlags n).stopReq = s.stopReq := rfl

@[simp] theorem State.updateFlags_breakpoints (s : State) (n : Binary64) :
    (s.updateFlags n).breakpoints = s.breakpoints := rfl

@[simp] theorem State.updateFlags_reg (s : State) (n : Binary64) (q : Reg) :
    (s.updateFlags n).reg q = s.reg q := rfl

@[simp] theorem State.updateFlags_vec (s : State) (n : Binary64) (q : VReg) :
    (s.updateFlags n).vec q = s.vec q := rfl

@[simp] theorem State.updateFlags_cell (s : State) (n : Binary64) (q : Nat) :
    (s.updateFlags n).cell q = s.cell q := rfl

@[simp] theorem State.updateFlags_memLen (s : State) (n : Binary64) :
    (s.updateFlags n).memLen = s.memLen := rfl

@[simp] theorem State.updateFlags_progLen (s : State) (n : Binary64) :
    (s.updateFlags n).progLen = s.progLen := rfl

/-! #### compareFlags -/

@[simp] theorem State.compareFlags_params (s : State) (a b : Binary64) :
    (s.compareFlags a b).params = s.params := rfl

@[simp] theorem State.compareFlags_x (s : State) (a b : Binary64) :
    (s.compareFlags a b).x = s.x := rfl

@[simp] theorem State.compareFlags_pc (s : State) (a b : Binary64) :
    (s.compareFlags a b).pc = s.pc := rfl

@[simp] theorem State.compareFlags_FLAGS (s : State) (a b : Binary64) :
    (s.compareFlags a b).FLAGS = a.eqNum b := rfl

@[simp] theorem State.compareFlags_FLAG (s : State) (a b : Binary64) :
    (s.compareFlags a b).FLAG = a.ltNum b := rfl

@[simp] theorem State.compareFlags_OVERFLOW (s : State) (a b : Binary64) :
    (s.compareFlags a b).OVERFLOW = s.OVERFLOW := rfl

@[simp] theorem State.compareFlags_v (s : State) (a b : Binary64) :
    (s.compareFlags a b).v = s.v := rfl

@[simp] theorem State.compareFlags_mem (s : State) (a b : Binary64) :
    (s.compareFlags a b).mem = s.mem := rfl

@[simp] theorem State.compareFlags_prog (s : State) (a b : Binary64) :
    (s.compareFlags a b).prog = s.prog := rfl

@[simp] theorem State.compareFlags_labels (s : State) (a b : Binary64) :
    (s.compareFlags a b).labels = s.labels := rfl

@[simp] theorem State.compareFlags_W (s : State) (a b : Binary64) :
    (s.compareFlags a b).W = s.W := rfl

@[simp] theorem State.compareFlags_MATSIZE (s : State) (a b : Binary64) :
    (s.compareFlags a b).MATSIZE = s.MATSIZE := rfl

@[simp] theorem State.compareFlags_runState (s : State) (a b : Binary64) :
    (s.compareFlags a b).runState = s.runState := rfl

@[simp] theorem State.compareFlags_errCode (s : State) (a b : Binary64) :
    (s.compareFlags a b).errCode = s.errCode := rfl

@[simp] theorem State.compareFlags_errLine (s : State) (a b : Binary64) :
    (s.compareFlags a b).errLine = s.errLine := rfl

@[simp] theorem State.compareFlags_bpSkip (s : State) (a b : Binary64) :
    (s.compareFlags a b).bpSkip = s.bpSkip := rfl

@[simp] theorem State.compareFlags_stopReq (s : State) (a b : Binary64) :
    (s.compareFlags a b).stopReq = s.stopReq := rfl

@[simp] theorem State.compareFlags_breakpoints (s : State) (a b : Binary64) :
    (s.compareFlags a b).breakpoints = s.breakpoints := rfl

@[simp] theorem State.compareFlags_reg (s : State) (a b : Binary64) (q : Reg) :
    (s.compareFlags a b).reg q = s.reg q := rfl

@[simp] theorem State.compareFlags_vec (s : State) (a b : Binary64) (q : VReg) :
    (s.compareFlags a b).vec q = s.vec q := rfl

@[simp] theorem State.compareFlags_cell (s : State) (a b : Binary64) (q : Nat) :
    (s.compareFlags a b).cell q = s.cell q := rfl

@[simp] theorem State.compareFlags_memLen (s : State) (a b : Binary64) :
    (s.compareFlags a b).memLen = s.memLen := rfl

@[simp] theorem State.compareFlags_progLen (s : State) (a b : Binary64) :
    (s.compareFlags a b).progLen = s.progLen := rfl

/-! #### setMatSize -/

@[simp] theorem State.setMatSize_params (s : State) (n : Nat) :
    (s.setMatSize n).params = s.params := rfl

@[simp] theorem State.setMatSize_x (s : State) (n : Nat) :
    (s.setMatSize n).x = s.x := rfl

@[simp] theorem State.setMatSize_pc (s : State) (n : Nat) :
    (s.setMatSize n).pc = s.pc := rfl

@[simp] theorem State.setMatSize_FLAGS (s : State) (n : Nat) :
    (s.setMatSize n).FLAGS = s.FLAGS := rfl

@[simp] theorem State.setMatSize_FLAG (s : State) (n : Nat) :
    (s.setMatSize n).FLAG = s.FLAG := rfl

@[simp] theorem State.setMatSize_OVERFLOW (s : State) (n : Nat) :
    (s.setMatSize n).OVERFLOW = s.OVERFLOW := rfl

@[simp] theorem State.setMatSize_v (s : State) (n : Nat) :
    (s.setMatSize n).v = s.v := rfl

@[simp] theorem State.setMatSize_mem (s : State) (n : Nat) :
    (s.setMatSize n).mem = s.mem := rfl

@[simp] theorem State.setMatSize_prog (s : State) (n : Nat) :
    (s.setMatSize n).prog = s.prog := rfl

@[simp] theorem State.setMatSize_labels (s : State) (n : Nat) :
    (s.setMatSize n).labels = s.labels := rfl

@[simp] theorem State.setMatSize_W (s : State) (n : Nat) :
    (s.setMatSize n).W = s.W := rfl

@[simp] theorem State.setMatSize_MATSIZE (s : State) (n : Nat) :
    (s.setMatSize n).MATSIZE = n := rfl

@[simp] theorem State.setMatSize_runState (s : State) (n : Nat) :
    (s.setMatSize n).runState = s.runState := rfl

@[simp] theorem State.setMatSize_errCode (s : State) (n : Nat) :
    (s.setMatSize n).errCode = s.errCode := rfl

@[simp] theorem State.setMatSize_errLine (s : State) (n : Nat) :
    (s.setMatSize n).errLine = s.errLine := rfl

@[simp] theorem State.setMatSize_bpSkip (s : State) (n : Nat) :
    (s.setMatSize n).bpSkip = s.bpSkip := rfl

@[simp] theorem State.setMatSize_stopReq (s : State) (n : Nat) :
    (s.setMatSize n).stopReq = s.stopReq := rfl

@[simp] theorem State.setMatSize_breakpoints (s : State) (n : Nat) :
    (s.setMatSize n).breakpoints = s.breakpoints := rfl

@[simp] theorem State.setMatSize_reg (s : State) (n : Nat) (q : Reg) :
    (s.setMatSize n).reg q = s.reg q := rfl

@[simp] theorem State.setMatSize_vec (s : State) (n : Nat) (q : VReg) :
    (s.setMatSize n).vec q = s.vec q := rfl

@[simp] theorem State.setMatSize_cell (s : State) (n : Nat) (q : Nat) :
    (s.setMatSize n).cell q = s.cell q := rfl

@[simp] theorem State.setMatSize_memLen (s : State) (n : Nat) :
    (s.setMatSize n).memLen = s.memLen := rfl

@[simp] theorem State.setMatSize_progLen (s : State) (n : Nat) :
    (s.setMatSize n).progLen = s.progLen := rfl

/-! #### setRunState -/

@[simp] theorem State.setRunState_params (s : State) (r : RunState) :
    (s.setRunState r).params = s.params := rfl

@[simp] theorem State.setRunState_x (s : State) (r : RunState) :
    (s.setRunState r).x = s.x := rfl

@[simp] theorem State.setRunState_pc (s : State) (r : RunState) :
    (s.setRunState r).pc = s.pc := rfl

@[simp] theorem State.setRunState_FLAGS (s : State) (r : RunState) :
    (s.setRunState r).FLAGS = s.FLAGS := rfl

@[simp] theorem State.setRunState_FLAG (s : State) (r : RunState) :
    (s.setRunState r).FLAG = s.FLAG := rfl

@[simp] theorem State.setRunState_OVERFLOW (s : State) (r : RunState) :
    (s.setRunState r).OVERFLOW = s.OVERFLOW := rfl

@[simp] theorem State.setRunState_v (s : State) (r : RunState) :
    (s.setRunState r).v = s.v := rfl

@[simp] theorem State.setRunState_mem (s : State) (r : RunState) :
    (s.setRunState r).mem = s.mem := rfl

@[simp] theorem State.setRunState_prog (s : State) (r : RunState) :
    (s.setRunState r).prog = s.prog := rfl

@[simp] theorem State.setRunState_labels (s : State) (r : RunState) :
    (s.setRunState r).labels = s.labels := rfl

@[simp] theorem State.setRunState_W (s : State) (r : RunState) :
    (s.setRunState r).W = s.W := rfl

@[simp] theorem State.setRunState_MATSIZE (s : State) (r : RunState) :
    (s.setRunState r).MATSIZE = s.MATSIZE := rfl

@[simp] theorem State.setRunState_runState (s : State) (r : RunState) :
    (s.setRunState r).runState = r := rfl

@[simp] theorem State.setRunState_errCode (s : State) (r : RunState) :
    (s.setRunState r).errCode = s.errCode := rfl

@[simp] theorem State.setRunState_errLine (s : State) (r : RunState) :
    (s.setRunState r).errLine = s.errLine := rfl

@[simp] theorem State.setRunState_bpSkip (s : State) (r : RunState) :
    (s.setRunState r).bpSkip = s.bpSkip := rfl

@[simp] theorem State.setRunState_stopReq (s : State) (r : RunState) :
    (s.setRunState r).stopReq = s.stopReq := rfl

@[simp] theorem State.setRunState_breakpoints (s : State) (r : RunState) :
    (s.setRunState r).breakpoints = s.breakpoints := rfl

@[simp] theorem State.setRunState_reg (s : State) (r : RunState) (q : Reg) :
    (s.setRunState r).reg q = s.reg q := rfl

@[simp] theorem State.setRunState_vec (s : State) (r : RunState) (q : VReg) :
    (s.setRunState r).vec q = s.vec q := rfl

@[simp] theorem State.setRunState_cell (s : State) (r : RunState) (q : Nat) :
    (s.setRunState r).cell q = s.cell q := rfl

@[simp] theorem State.setRunState_memLen (s : State) (r : RunState) :
    (s.setRunState r).memLen = s.memLen := rfl

@[simp] theorem State.setRunState_progLen (s : State) (r : RunState) :
    (s.setRunState r).progLen = s.progLen := rfl

/-! #### enterError -/

@[simp] theorem State.enterError_params (s : State) (e : Err) :
    (s.enterError e).params = s.params := rfl

@[simp] theorem State.enterError_x (s : State) (e : Err) :
    (s.enterError e).x = s.x := rfl

@[simp] theorem State.enterError_pc (s : State) (e : Err) :
    (s.enterError e).pc = s.pc := rfl

@[simp] theorem State.enterError_FLAGS (s : State) (e : Err) :
    (s.enterError e).FLAGS = s.FLAGS := rfl

@[simp] theorem State.enterError_FLAG (s : State) (e : Err) :
    (s.enterError e).FLAG = s.FLAG := rfl

@[simp] theorem State.enterError_OVERFLOW (s : State) (e : Err) :
    (s.enterError e).OVERFLOW = s.OVERFLOW := rfl

@[simp] theorem State.enterError_v (s : State) (e : Err) :
    (s.enterError e).v = s.v := rfl

@[simp] theorem State.enterError_mem (s : State) (e : Err) :
    (s.enterError e).mem = s.mem := rfl

@[simp] theorem State.enterError_prog (s : State) (e : Err) :
    (s.enterError e).prog = s.prog := rfl

@[simp] theorem State.enterError_labels (s : State) (e : Err) :
    (s.enterError e).labels = s.labels := rfl

@[simp] theorem State.enterError_W (s : State) (e : Err) :
    (s.enterError e).W = s.W := rfl

@[simp] theorem State.enterError_MATSIZE (s : State) (e : Err) :
    (s.enterError e).MATSIZE = s.MATSIZE := rfl

@[simp] theorem State.enterError_runState (s : State) (e : Err) :
    (s.enterError e).runState = .stoppedError := rfl

@[simp] theorem State.enterError_errCode (s : State) (e : Err) :
    (s.enterError e).errCode = some e := rfl

@[simp] theorem State.enterError_errLine (s : State) (e : Err) :
    (s.enterError e).errLine = s.pc + 1 := rfl

@[simp] theorem State.enterError_bpSkip (s : State) (e : Err) :
    (s.enterError e).bpSkip = s.bpSkip := rfl

@[simp] theorem State.enterError_stopReq (s : State) (e : Err) :
    (s.enterError e).stopReq = s.stopReq := rfl

@[simp] theorem State.enterError_breakpoints (s : State) (e : Err) :
    (s.enterError e).breakpoints = s.breakpoints := rfl

@[simp] theorem State.enterError_reg (s : State) (e : Err) (q : Reg) :
    (s.enterError e).reg q = s.reg q := rfl

@[simp] theorem State.enterError_vec (s : State) (e : Err) (q : VReg) :
    (s.enterError e).vec q = s.vec q := rfl

@[simp] theorem State.enterError_cell (s : State) (e : Err) (q : Nat) :
    (s.enterError e).cell q = s.cell q := rfl

@[simp] theorem State.enterError_memLen (s : State) (e : Err) :
    (s.enterError e).memLen = s.memLen := rfl

@[simp] theorem State.enterError_progLen (s : State) (e : Err) :
    (s.enterError e).progLen = s.progLen := rfl

/-! #### Reading what was written -/

theorem RegFile.get_set (f : RegFile) (r q : Reg) (w : RegWord) :
    (f.set r w).get q = if q = r then w else f.get q := by
  cases r <;> cases q <;> rfl

theorem VecFile.get_set (f : VecFile) (r q : VReg) (l : Lanes) :
    (f.set r l).get q = if q = r then l else f.get q := by
  cases r <;> cases q <;> rfl

@[simp] theorem State.setReg_reg (s : State) (r q : Reg) (w : RegWord) :
    (s.setReg r w).reg q = if q = r then w.toNat else s.reg q := by
  simp only [State.reg, State.setReg, RegFile.get_set]
  split <;> rfl

@[simp] theorem State.setVec_vec (s : State) (r q : VReg) (l : Lanes) :
    (s.setVec r l).vec q = if q = r then l else s.vec q := VecFile.get_set _ _ _ _

theorem State.reg_lt (s : State) (r : Reg) : s.reg r < 2 ^ 32 := (s.x.get r).isLt

/-- The unmasked update of SP: exact for every value a register can hold (10_state.md R25). -/
theorem State.setSP_reg (s : State) (n : Nat) (h : n < 2 ^ 32) (q : Reg) :
    (s.setSP n).reg q = if q = .sp then n else s.reg q := by
  simp only [State.setSP, State.setReg_reg, BitVec.toNat_ofNat, Nat.mod_eq_of_lt h]

theorem Width.bits_le (w : Width) : 2 ^ w.bits ≤ 2 ^ 32 := by cases w <;> decide

/-- `mask_W(v)` lies in `[0, 2^W - 1]` (00_scope.md R10). -/
theorem maskNum_lt (w : Width) (v : Binary64) : maskNum w v < 2 ^ w.bits := by
  have hpos : (0 : Int) < ((2 ^ w.bits : Nat) : Int) := by exact_mod_cast Nat.two_pow_pos _
  have h := Int.emod_lt_of_pos v.trunc hpos
  have h0 := Int.emod_nonneg v.trunc (ne_of_gt hpos)
  unfold maskNum
  omega

/-- An explicit register write stores `mask_W(v)` in its register and in no other (10_state.md R23). -/
@[simp] theorem State.writeReg_reg (s : State) (r q : Reg) (n : Binary64) :
    (s.writeReg r n).reg q = if q = r then maskNum s.W n else s.reg q := by
  have h : maskNum s.W n < 2 ^ 32 := lt_of_lt_of_le (maskNum_lt _ _) (Width.bits_le _)
  simp only [State.writeReg, State.setReg_reg, BitVec.toNat_ofNat, Nat.mod_eq_of_lt h]

theorem State.sp_lt (s : State) : s.sp < 2 ^ 32 := s.reg_lt .sp

@[simp] theorem State.reg_sp (s : State) : s.reg .sp = s.sp := rfl

end Sys2Proof.Machine
end

