-- ==== Sys2Proof/Laws/Memory.lean ====
section
/-! SUPPORT. Data memory: every operation keeps the canonical form, a read after a write to the same
address gives what was written, and a write leaves every other address alone. -/

namespace Sys2Proof.Machine

theorem Memory.read_eq_zero_of_lt {m : Memory} {a : Nat} (h : ∀ p ∈ m, a < p.1) :
    Memory.read m a = .zero := by
  induction m with
  | nil => rfl
  | cons p m ih =>
    have hp := h p (by simp)
    have ih := ih (fun q hq => h q (by simp [hq]))
    obtain ⟨k, u⟩ := p
    simp only [Memory.read]
    rw [if_neg (by simp at hp; omega), ih]

/-- A write leaves every other address alone, whatever the list. -/
theorem Memory.read_write_other (m : Memory) {a b : Nat} (v : Binary64) (h : b ≠ a) :
    Memory.read (Memory.write m a v) b = Memory.read m b := by
  induction m with
  | nil =>
    simp only [Memory.write]
    split <;> simp [Memory.read, Ne.symm h]
  | cons p m ih =>
    obtain ⟨k, u⟩ := p
    simp only [Memory.write]
    split
    · split
      · rfl
      · simp [Memory.read, Ne.symm h]
    · split
      · next hk =>
        subst hk
        split
        · simp [Memory.read, Ne.symm h]
        · simp [Memory.read, Ne.symm h]
      · simp only [Memory.read, ih]

/-- A read after a write to the same address gives the value written. -/
theorem Memory.read_write_same {m : Memory} (hm : Memory.wf m) (a : Nat) (v : Binary64) :
    Memory.read (Memory.write m a v) a = v := by
  induction m with
  | nil =>
    simp only [Memory.write]
    split
    · next h => rw [h]; rfl
    · simp [Memory.read]
  | cons p m ih =>
    obtain ⟨k, u⟩ := p
    obtain ⟨hs, hz⟩ := hm
    rw [List.pairwise_cons] at hs
    have hwf : Memory.wf m := ⟨hs.2, fun q hq => hz q (by simp [hq])⟩
    simp only [Memory.write]
    split
    · next hlt =>
      split
      · next hv =>
        rw [hv]
        refine Memory.read_eq_zero_of_lt ?_
        intro q hq
        rcases List.mem_cons.1 hq with rfl | hq
        · exact hlt
        · exact lt_trans hlt (hs.1 q hq)
      · simp [Memory.read]
    · split
      · next hk =>
        split
        · next hv =>
          rw [hv]
          refine Memory.read_eq_zero_of_lt ?_
          intro q hq
          rw [hk]
          exact hs.1 q hq
        · simp [Memory.read]
      · next hk =>
        simp only [Memory.read]
        rw [if_neg (Ne.symm hk), ih hwf]

theorem Memory.mem_write {m : Memory} {a : Nat} {v : Binary64} {p : Nat × Binary64}
    (h : p ∈ Memory.write m a v) : (p = (a, v) ∧ v ≠ .zero) ∨ p ∈ m := by
  induction m with
  | nil =>
    simp only [Memory.write] at h
    split at h
    · simp at h
    · next hv => exact .inl ⟨by simpa using h, hv⟩
  | cons q m ih =>
    obtain ⟨k, u⟩ := q
    simp only [Memory.write] at h
    split at h
    · split at h
      · exact .inr h
      · next hv =>
        rcases List.mem_cons.1 h with h | h
        · exact .inl ⟨h, hv⟩
        · exact .inr h
    · split at h
      · split at h
        · exact .inr (List.mem_cons_of_mem _ h)
        · next hv =>
          rcases List.mem_cons.1 h with h | h
          · exact .inl ⟨h, hv⟩
          · exact .inr (List.mem_cons_of_mem _ h)
      · rcases List.mem_cons.1 h with h | h
        · exact .inr (by simp [h])
        · rcases ih h with h | h
          · exact .inl h
          · exact .inr (List.mem_cons_of_mem _ h)

/-- Every write keeps the canonical form. -/
theorem Memory.write_wf {m : Memory} (hm : Memory.wf m) (a : Nat) (v : Binary64) :
    Memory.wf (Memory.write m a v) := by
  refine ⟨?_, ?_⟩
  · induction m with
    | nil =>
      simp only [Memory.write]
      split <;> simp
    | cons p m ih =>
      obtain ⟨k, u⟩ := p
      obtain ⟨hs, hz⟩ := hm
      rw [List.pairwise_cons] at hs
      have hwf : Memory.wf m := ⟨hs.2, fun q hq => hz q (by simp [hq])⟩
      simp only [Memory.write]
      split
      · next hlt =>
        split
        · exact List.pairwise_cons.2 hs
        · refine List.pairwise_cons.2 ⟨?_, List.pairwise_cons.2 hs⟩
          intro q hq
          rcases List.mem_cons.1 hq with rfl | hq
          · exact hlt
          · exact lt_trans hlt (hs.1 q hq)
      · split
        · next hk =>
          split
          · exact hs.2
          · refine List.pairwise_cons.2 ⟨?_, hs.2⟩
            intro q hq
            rw [hk]
            exact hs.1 q hq
        · next hlt hk =>
          refine List.pairwise_cons.2 ⟨?_, ih hwf⟩
          intro q hq
          rcases Memory.mem_write hq with ⟨rfl, -⟩ | hq
          · simp only
            omega
          · exact hs.1 q hq
  · intro p hp
    rcases Memory.mem_write hp with ⟨rfl, hv⟩ | hp
    · exact hv
    · exact hm.2 p hp

theorem Memory.reset_wf (p : Params) : Memory.wf (State.resetOf p).mem := by
  simp [State.resetOf, Memory.wf]

theorem State.putCell_wf {s : State} (h : Memory.wf s.mem) (a : Nat) (v : Binary64) :
    Memory.wf (s.putCell a v).mem := Memory.write_wf h a v

theorem State.putCell_cell_same {s : State} (h : Memory.wf s.mem) (a : Nat) (v : Binary64) :
    (s.putCell a v).cell a = v := Memory.read_write_same h a v

theorem State.putCell_cell_other (s : State) {a b : Nat} (v : Binary64) (h : b ≠ a) :
    (s.putCell a v).cell b = s.cell b := Memory.read_write_other s.mem v h

end Sys2Proof.Machine
end

