-- ==== Sys2Proof/Laws/Num.lean ====
section
/-! SUPPORT. Rounding and the integers: `fl` gives a number of binary64, it is the identity on the integers
of magnitude at most 2^53 (00_scope.md R9), and the value of a literal is an integer. -/

namespace Sys2Proof

set_option exponentiation.threshold 1100

theorem Binary64.unit_eq : Binary64.unit = 2 ^ 1074 := (pow_mul 2 179 6).symm

theorem Binary64.unit_pos : 0 < Binary64.unit := by
  rw [Binary64.unit_eq]; exact Nat.two_pow_pos _

theorem Binary64.limit_eq : Binary64.limit = Binary64.unit * 2 ^ 1024 := by
  unfold Binary64.limit
  rw [← pow_mul]

/-- At most 2^53 times a power of two has a 53-bit significand. -/
theorem HasSignificand.mul_two_pow {j : Nat} (hj : j ≤ 2 ^ 53) (e : Nat) :
    HasSignificand (2 ^ e * j) := by
  rcases Nat.eq_zero_or_pos j with rfl | hpos
  · simp [HasSignificand]
  · rcases Nat.lt_or_eq_of_le hj with hlt | rfl
    · have hlog : (2 ^ e * j).log2 = e + j.log2 := by
        rw [Nat.log2_eq_iff (by positivity)]
        have h1 := Nat.log2_self_le (Nat.pos_iff_ne_zero.1 hpos)
        have h2 := Nat.lt_log2_self (n := j)
        constructor
        · rw [pow_add]; exact Nat.mul_le_mul_left _ h1
        · rw [Nat.add_assoc, pow_add]
          exact Nat.mul_lt_mul_of_pos_left h2 (Nat.two_pow_pos _)
      have hle : j.log2 < 53 := (Nat.log2_lt (Nat.pos_iff_ne_zero.1 hpos)).2 hlt
      refine Nat.mod_eq_zero_of_dvd (Dvd.dvd.mul_right (pow_dvd_pow 2 ?_) j)
      omega
    · rw [← pow_add]
      unfold HasSignificand
      rw [Nat.log2_two_pow]
      exact Nat.mod_eq_zero_of_dvd (pow_dvd_pow 2 (by omega))

/-- A number with a significand rounds to itself. -/
theorem roundQuotient_exact {m den : Nat} (hden : 0 < den) (h : HasSignificand m) :
    roundQuotient (m * den) den = m := by
  have hdvd : 2 ^ (m.log2 - 52) ∣ m := Nat.dvd_of_mod_eq_zero h
  have hq : m * den / den = m := Nat.mul_div_cancel _ hden
  unfold roundQuotient
  simp only [hq]
  obtain ⟨j, hj⟩ := hdvd
  generalize hu : 2 ^ (m.log2 - 52) = u at hj
  have hupos : 0 < u := by rw [← hu]; exact Nat.two_pow_pos _
  have hform : m * den = j * (den * u) := by rw [hj]; ring
  have hd : 0 < den * u := Nat.mul_pos hden hupos
  rw [hform, Nat.mul_mod_left, Nat.mul_div_cancel _ hd, if_pos (by omega), hj, Nat.mul_comm]

theorem roundQuotient_exact_one {m : Nat} (h : HasSignificand m) : roundQuotient m 1 = m := by
  have := roundQuotient_exact Nat.one_pos h
  rwa [Nat.mul_one] at this

/-- What rounding answers: at most 2^53 times the spacing around the quotient. -/
theorem roundQuotient_form (num den : Nat) :
    ∃ j ≤ 2 ^ 53, roundQuotient num den = 2 ^ ((num / den).log2 - 52) * j := by
  unfold roundQuotient
  simp only
  generalize hu : 2 ^ ((num / den).log2 - 52) = u
  refine ⟨_, ?_, Nat.mul_comm _ _⟩
  have hupos : 0 < u := by rw [← hu]; exact Nat.two_pow_pos _
  have hk : num / (den * u) < 2 ^ 53 := by
    rw [← Nat.div_div_eq_div_mul, Nat.div_lt_iff_lt_mul hupos, ← hu, ← pow_add]
    refine lt_of_lt_of_le (Nat.lt_log2_self (n := num / den)) (Nat.pow_le_pow_right (by omega) ?_)
    omega
  split
  · omega
  · split <;> omega

theorem roundQuotient_hasSignificand (num den : Nat) : HasSignificand (roundQuotient num den) := by
  obtain ⟨j, hj, h⟩ := roundQuotient_form num den
  rw [h]
  exact HasSignificand.mul_two_pow hj _

namespace Binary64

theorem fl_representable (neg : Bool) (num den : Nat) : (fl neg num den).Representable := by
  unfold fl
  simp only
  split
  · next h => exact ⟨roundQuotient_hasSignificand num den, h⟩
  · trivial

theorem fl_notNegative (num den : Nat) : (fl false num den).NotNegative := by
  unfold fl
  simp only
  split <;> rfl

theorem fl_false_proper (num den : Nat) : (fl false num den).Proper :=
  ⟨fl_representable _ _ _, fl_notNegative _ _⟩

/-- `fl` keeps a number of binary64. -/
theorem fl_exact (neg : Bool) {m : Nat} (h : HasSignificand m) (hm : m < limit) :
    fl neg m 1 = .fin neg m := by
  unfold fl
  simp only [roundQuotient_exact_one h, if_pos hm]

theorem hasSignificand_unit_mul {k : Nat} (h : k ≤ 2 ^ 53) : HasSignificand (unit * k) := by
  rw [unit_eq]; exact HasSignificand.mul_two_pow h _

theorem unit_mul_lt_limit {k : Nat} (h : k < 2 ^ 1024) : unit * k < limit := by
  rw [limit_eq]
  exact Nat.mul_lt_mul_of_pos_left h unit_pos

theorem lt_two_pow_1024_of_le {k e : Nat} (h : k ≤ 2 ^ e) (he : e < 1024) : k < 2 ^ 1024 :=
  lt_of_le_of_lt h (Nat.pow_lt_pow_right (by omega) he)

/-- `fl` is the identity on the natural numbers up to 2^53 (00_scope.md R9). -/
theorem ofNat_exact {k : Nat} (h : k ≤ 2 ^ 53) : ofNat k = .fin false (unit * k) :=
  fl_exact false (hasSignificand_unit_mul h) (unit_mul_lt_limit (lt_two_pow_1024_of_le h (by omega)))

/-- `fl` is the identity on the integers of magnitude up to 2^53 (00_scope.md R9). -/
theorem ofInt_exact {k : Int} (h : k.natAbs ≤ 2 ^ 53) :
    ofInt k = .fin (decide (k < 0)) (unit * k.natAbs) :=
  fl_exact _ (hasSignificand_unit_mul h) (unit_mul_lt_limit (lt_two_pow_1024_of_le h (by omega)))

theorem ofNat_proper (k : Nat) : (ofNat k).Proper := fl_false_proper _ _

/-- The rounding of a natural number is a natural number. -/
theorem unit_dvd_roundQuotient (k : Nat) : unit ∣ roundQuotient (unit * k) 1 := by
  rcases Nat.lt_or_ge (2 ^ 53) k with h | h
  · obtain ⟨j, -, hj⟩ := roundQuotient_form (unit * k) 1
    rw [hj, Nat.div_one]
    refine Dvd.dvd.mul_right ?_ j
    have hle : 2 ^ (1074 + 53) ≤ unit * k := by
      rw [pow_add, unit_eq]; exact Nat.mul_le_mul_left _ (le_of_lt h)
    have hne : unit * k ≠ 0 := by
      have := Nat.two_pow_pos (1074 + 53)
      omega
    have := (Nat.le_log2 hne).2 hle
    generalize (unit * k).log2 = e at this
    rw [unit_eq]
    exact pow_dvd_pow 2 (by omega)
  · rw [roundQuotient_exact_one (hasSignificand_unit_mul h)]
    exact Dvd.intro k rfl

end Binary64

theorem roundQuotient_unit_le {k e : Nat} (hk : k ≤ 2 ^ e) (he : 53 ≤ e) :
    roundQuotient (Binary64.unit * k) 1 ≤ Binary64.unit * 2 ^ e := by
  rcases Nat.lt_or_eq_of_le hk with hlt | rfl
  · obtain ⟨j, hj, h⟩ := roundQuotient_form (Binary64.unit * k) 1
    rw [h, Nat.div_one]
    refine le_trans (Nat.mul_le_mul_left _ hj) ?_
    rw [Binary64.unit_eq, ← pow_add, ← pow_add]
    refine Nat.pow_le_pow_right (by omega) ?_
    have hb : 2 ^ 1074 * k < 2 ^ (1074 + e) := by
      rw [pow_add]; exact Nat.mul_lt_mul_of_pos_left hlt (Nat.two_pow_pos _)
    rcases Nat.eq_zero_or_pos k with rfl | hpos
    · rw [Nat.mul_zero, Nat.log2_zero]; omega
    · have := (Nat.log2_lt (by positivity)).2 hb
      omega
  · have hs : HasSignificand (Binary64.unit * 2 ^ e) := by
      rw [Binary64.unit_eq, ← pow_add, ← Nat.mul_one (2 ^ (1074 + e))]
      exact HasSignificand.mul_two_pow (Nat.one_le_two_pow) _
    exact le_of_eq (roundQuotient_exact_one hs)

/-- A literal's value is the integer `literalNat` (30_encoding.md R112, R124), exactly. -/
theorem literalValue_eq (p : Word) :
    literalValue p = .fin false (Binary64.unit * literalNat p) := by
  have hle : p.toNat ≤ 2 ^ 64 := le_of_lt p.isLt
  have hlt : roundQuotient (Binary64.unit * p.toNat) 1 < Binary64.limit :=
    lt_of_le_of_lt (roundQuotient_unit_le hle (by omega))
      (Binary64.unit_mul_lt_limit (Binary64.lt_two_pow_1024_of_le (le_refl _) (by omega)))
  have hv : literalValue p = .fin false (roundQuotient (Binary64.unit * p.toNat) 1) := by
    simp only [literalValue, Binary64.ofNat, Binary64.fl, if_pos hlt]
  have hn : literalNat p = roundQuotient (Binary64.unit * p.toNat) 1 / Binary64.unit := by
    simp only [literalNat, hv, Binary64.trunc, Bool.false_eq_true, if_false, Int.toNat_natCast]
  rw [hv, hn, Nat.mul_div_cancel' (Binary64.unit_dvd_roundQuotient _)]

theorem literalValue_proper (p : Word) : (literalValue p).Proper := Binary64.ofNat_proper _

/-- Below 2^53 a literal is the integer it spells (00_scope.md R9). -/
theorem literalNat_eq {p : Word} (h : p.toNat ≤ 2 ^ 53) : literalNat p = p.toNat := by
  simp only [literalNat, literalValue, Binary64.ofNat_exact h, Binary64.trunc, Bool.false_eq_true,
    if_false, Int.toNat_natCast, Nat.mul_div_cancel_left _ Binary64.unit_pos]

end Sys2Proof
end

