-- ==== Sys2Proof/Laws/Ops.lean ====
section
/-! SUPPORT. One lemma for each shared operation that says everything it can do: when it answers, with what,
and what the value is like. Later proofs cite these and do not unfold the operations. -/

namespace Sys2Proof.Machine

/-! ### Sequencing of checks -/

@[simp] theorem ok_bind {α β : Type} (a : α) (f : α → Except Err β) : (Except.ok a >>= f) = f a := rfl

@[simp] theorem error_bind {α β : Type} (e : Err) (f : α → Except Err β) :
    ((Except.error e : Except Err α) >>= f) = .error e := rfl

theorem bind_eq_ok {α β : Type} {x : Except Err α} {f : α → Except Err β} {b : β} :
    (x >>= f) = .ok b ↔ ∃ a, x = .ok a ∧ f a = .ok b := by
  cases x with
  | error e => simp
  | ok a => simp

/-- A meaning answers a next state, whatever happens (60_exceptions.md R320). -/
theorem attempt_eq_next (s : State) (r : Except Err State) (t : State) :
    attempt s r = .next t ↔ r = .ok t ∨ ∃ e, r = .error e ∧ t = s.enterError e := by
  cases r with
  | error e => simp [attempt, eq_comm]
  | ok u => simp [attempt]

@[simp] theorem attempt_ok (s t : State) : attempt s (.ok t) = .next t := rfl

@[simp] theorem attempt_error (s : State) (e : Err) : attempt s (.error e) = .next (s.enterError e) := rfl

theorem require_eq_ok {c : Bool} {e : Err} {u : Unit} : require c e = .ok u ↔ c = true := by
  cases c <;> simp [require]

@[simp] theorem require_true (e : Err) : require true e = .ok () := rfl

@[simp] theorem require_false (e : Err) : require false e = .error e := rfl

theorem checkArity_eq_ok {n : Nat} {o : Operands} {u : Unit} :
    checkArity n o = .ok u ↔ o.nops.toNat = n := by
  simp [checkArity, require_eq_ok]

/-! ### Memory -/

theorem State.memRead_eq_ok {s : State} {a : Nat} {v : Binary64} :
    s.memRead a = .ok v ↔ a < s.memLen ∧ s.cell a = v := by
  unfold State.memRead
  split <;> simp_all

theorem State.memRead4_eq_ok {s : State} {a : Nat} {l : Lanes} :
    s.memRead4 a = .ok l ↔
      a + 3 < s.memLen ∧ ⟨s.cell a, s.cell (a + 1), s.cell (a + 2), s.cell (a + 3)⟩ = l := by
  unfold State.memRead4
  split <;> simp_all

theorem State.memWrite_eq_ok {s t : State} {a : Nat} {v : Binary64} :
    s.memWrite a v = .ok t ↔ a < s.memLen ∧ s.putCell a v = t := by
  unfold State.memWrite
  split <;> simp_all

/-- The four cells of a vector store, written in order. -/
def State.putLanes (s : State) (a : Nat) (l : Lanes) : State :=
  (((s.putCell a l.l0).putCell (a + 1) l.l1).putCell (a + 2) l.l2).putCell (a + 3) l.l3

theorem State.memWrite4_eq_ok {s t : State} {a : Nat} {l : Lanes} :
    s.memWrite4 a l = .ok t ↔ a + 3 < s.memLen ∧ s.putLanes a l = t := by
  unfold State.memWrite4 State.putLanes
  split <;> simp_all

theorem State.pushCell_eq_ok {s t : State} {v : Binary64} :
    s.pushCell v = .ok t ↔ s.sp - 1 < s.memLen ∧ (s.putCell (s.sp - 1) v).setSP (s.sp - 1) = t := by
  simp [State.pushCell, bind_eq_ok, State.memWrite_eq_ok, and_assoc]

/-! ### Operands -/

theorem numbered_eq_ok {n : BitVec 4} {r : Reg} : numbered n = .ok r ↔ regOfNumber n = some r := by
  unfold numbered
  split <;> simp_all

theorem regOf_eq_ok {o : Operand} {r : Reg} :
    regOf o = .ok r ↔ ∃ n, o = .reg n ∧ regOfNumber n = some r := by
  cases o <;> simp [regOf, numbered_eq_ok]

theorem vregOf_eq_ok {o : Operand} {r : VReg} :
    vregOf o = .ok r ↔ ∃ n, o = .vreg n ∧ vregOfNumber n = some r := by
  cases o <;> simp only [vregOf, reduceCtorEq, false_and, exists_false, Operand.vreg.injEq,
    exists_eq_left']
  split <;> simp_all

theorem State.regValue_eq_ok {s : State} {n : BitVec 4} {v : Binary64} :
    s.regValue n = .ok v ↔ ∃ r, regOfNumber n = some r ∧ Binary64.ofNat (s.reg r) = v := by
  unfold State.regValue numbered
  cases regOfNumber n <;> simp

theorem State.valRl10_eq_ok {s : State} {o : Operand} {v : Binary64} :
    s.valRl10 o = .ok v ↔
      (∃ n r, o = .reg n ∧ regOfNumber n = some r ∧ Binary64.ofNat (s.reg r) = v) ∨
      (∃ p, o = .imm p .dec ∧ literalValue p = v) := by
  cases o with
  | imm p b => cases b <;> simp [State.valRl10]
  | reg n => simp [State.valRl10, State.regValue_eq_ok]
  | _ => simp [State.valRl10]

theorem State.valRl_eq_ok {s : State} {o : Operand} {v : Binary64} :
    s.valRl o = .ok v ↔
      (∃ n r, o = .reg n ∧ regOfNumber n = some r ∧ Binary64.ofNat (s.reg r) = v) ∨
      (∃ p b, o = .imm p b ∧ literalValue p = v) := by
  cases o <;> simp [State.valRl, State.regValue_eq_ok]

theorem State.valRl_proper {s : State} {o : Operand} {v : Binary64} (h : s.valRl o = .ok v) :
    v.Proper := by
  rcases State.valRl_eq_ok.1 h with ⟨_, _, -, -, rfl⟩ | ⟨_, _, -, rfl⟩
  · exact Binary64.ofNat_proper _
  · exact literalValue_proper _

theorem State.valAny_eq_ok {s : State} {o : Operand} {v : Binary64} :
    s.valAny o = .ok v ↔
      (o.isMem = true ∧ ∃ a, s.ea o = .ok a ∧ a < s.memLen ∧ s.cell a = v) ∨
      (o.isMem = false ∧ s.valRl o = .ok v) := by
  unfold State.valAny
  split <;> simp_all [bind_eq_ok, State.memRead_eq_ok]

/-- An address is a memory reference with readable parts. -/
theorem State.ea_isMem {s : State} {o : Operand} {a : Nat} (h : s.ea o = .ok a) : o.isMem = true := by
  cases o <;> simp_all [State.ea, Operand.isMem]

theorem State.targetOf_eq_ok {s : State} {o : Operand} {t : Nat} :
    s.targetOf o = .ok t ↔ ∃ id, o = .label id ∧ labelTarget s.labels id.toNat = some t := by
  cases o <;> simp only [State.targetOf, reduceCtorEq, false_and, exists_false,
    Operand.label.injEq, exists_eq_left']
  split <;> simp_all

theorem labelTarget_mem {l : List (Nat × Nat)} {id t : Nat} (h : labelTarget l id = some t) :
    (id, t) ∈ l := by
  induction l with
  | nil => simp [labelTarget] at h
  | cons p l ih =>
    obtain ⟨k, u⟩ := p
    simp only [labelTarget] at h
    split at h
    · next hk => simp_all
    · exact List.mem_cons_of_mem _ (ih h)

/-! ### The value checks -/

theorem State.returnTarget_eq_ok {s : State} {v : Binary64} {n : Nat} :
    s.returnTarget v = .ok n ↔ v.toNat? = some n ∧ n ≤ s.progLen := by
  unfold State.returnTarget
  split
  · next m h =>
    split
    · next hle => simp only [h, Except.ok.injEq, Option.some.injEq]; constructor
                  · rintro rfl; exact ⟨rfl, hle⟩
                  · exact fun h => h.1
    · next hle =>
      simp only [h, Option.some.injEq, reduceCtorEq, false_iff]
      rintro ⟨rfl, h⟩
      exact hle h
  · next h => simp [h]

theorem matSizeOf_eq_ok {v : Binary64} {n : Nat} :
    matSizeOf v = .ok n ↔ v.toNat? = some n ∧ 1 ≤ n ∧ n ≤ maxLanes := by
  unfold matSizeOf
  split
  · next m h =>
    split
    · next hle => simp only [h, Except.ok.injEq, Option.some.injEq]; constructor
                  · rintro rfl; exact ⟨rfl, hle⟩
                  · exact fun h => h.1
    · next hle =>
      simp only [h, Option.some.injEq, reduceCtorEq, false_iff]
      rintro ⟨rfl, h⟩
      exact hle h
  · next h => simp [h]

end Sys2Proof.Machine
end

