-- ==== Sys2Proof/Laws/Effects.lean ====
section
/-! SUPPORT. What an instruction can do, said once: if `exec` answers a next state, that state is the entry
into an error, or one of the effects listed here (`exec_effect`). Invariants and frames are derived
from it without unfolding a meaning. -/

namespace Sys2Proof.Machine

/-- The shapes of effect, one for each group of instructions that change the same kinds of state. -/
inductive Shape where
  | arith
  | compare
  | mov
  | load
  | store
  | push
  | pop
  | dup
  | swap
  | rot
  | jump
  | call
  | ret
  | lanes
  | vload
  | vstore
  | matSize
  | pass
  | halt
  deriving DecidableEq, Repr

/-- The shape of an instruction. -/
def shapeOf : Instr → Shape
  | .add _ | .sub _ | .mul _ | .div _ | .and _ | .or _ | .xor _ | .inc _ | .dec _ | .not _ => .arith
  | .cmp _ => .compare
  | .mov _ => .mov
  | .load _ => .load
  | .store _ => .store
  | .push _ => .push
  | .pop _ => .pop
  | .dup _ => .dup
  | .swap _ => .swap
  | .rot _ => .rot
  | .jmp _ | .je _ | .jz _ | .jne _ | .jnz _ | .jl _ | .jg _ | .jle _ | .jge _ => .jump
  | .call _ => .call
  | .ret _ => .ret
  | .vadd _ | .vmul _ | .vdiv _ => .lanes
  | .vload _ => .vload
  | .vstore _ => .vstore
  | .setmatsize _ => .matSize
  | .blank | .label _ => .pass
  | .halt => .halt

/-- The lane operations, with a divisor that has no zero lane for the division. -/
def LaneOp (f : Binary64 → Binary64 → Binary64) (b : Lanes) : Prop :=
  f = Binary64.add ∨ f = Binary64.mul ∨ (f = Binary64.div ∧ b.any Binary64.isZero = false)

/-- The effects, by shape: from `s` to `t`. -/
inductive Effect (s : State) : Shape → State → Prop where
  | arith (d : Reg) (r : Binary64) : Effect s .arith (s.commitArith d r)
  | compare (a b : Binary64) : Effect s .compare (s.compareFlags a b).advance
  | movReg (d : Reg) (v : Binary64) : Effect s .mov (s.writeReg d v).advance
  | movMem (a : Nat) (v : Binary64) (o : Operand) (ha : a < s.memLen) (hv : s.valAny o = .ok v) :
      Effect s .mov (s.putCell a v).advance
  | load (d : Reg) (a : Nat) (ha : a < s.memLen) : Effect s .load (s.writeReg d (s.cell a)).advance
  | store (a : Nat) (v : Binary64) (o : Operand) (ha : a < s.memLen) (hv : s.valRl o = .ok v) :
      Effect s .store (s.putCell a v).advance
  | push (v : Binary64) (o : Operand) (hsp : 0 < s.sp) (ha : s.sp - 1 < s.memLen)
      (hv : s.valRl o = .ok v) :
      Effect s .push ((s.putCell (s.sp - 1) v).setSP (s.sp - 1)).advance
  | pop (d : Reg) (ha : s.sp < s.memLen) :
      Effect s .pop ((s.setSP (s.sp + 1)).writeReg d (s.cell s.sp)).advance
  | dup (hsp : 0 < s.sp) (ha : s.sp < s.memLen) :
      Effect s .dup ((s.putCell (s.sp - 1) (s.cell s.sp)).setSP (s.sp - 1)).advance
  | swap (ha : s.sp + 1 < s.memLen) :
      Effect s .swap
        ((s.putCell s.sp (s.cell (s.sp + 1))).putCell (s.sp + 1) (s.cell s.sp)).advance
  | rot (ha : s.sp + 2 < s.memLen) :
      Effect s .rot
        (((s.putCell s.sp (s.cell (s.sp + 1))).putCell (s.sp + 1) (s.cell (s.sp + 2))).putCell
          (s.sp + 2) (s.cell s.sp)).advance
  | jumpTaken (id t : Nat) (ht : labelTarget s.labels id = some t) : Effect s .jump (s.setPc t)
  | jumpUntaken : Effect s .jump s.advance
  | call (id t : Nat) (hsp : 0 < s.sp) (ha : s.sp - 1 < s.memLen)
      (ht : labelTarget s.labels id = some t) :
      Effect s .call
        (((s.putCell (s.sp - 1) (Binary64.ofNat (s.pc + 1))).setSP (s.sp - 1)).setPc t)
  | ret (n : Nat) (ha : s.sp < s.memLen) (hn : (s.cell s.sp).toNat? = some n) (hle : n ≤ s.progLen) :
      Effect s .ret ((s.setSP (s.sp + 1)).setPc n)
  | lanes (f : Binary64 → Binary64 → Binary64) (d a b : VReg) (hf : LaneOp f (s.vec b)) :
      Effect s .lanes (s.setVec d (Lanes.map2 f (s.vec a) (s.vec b))).advance
  | vload (d : VReg) (a : Nat) (ha : a + 3 < s.memLen) :
      Effect s .vload
        (s.setVec d ⟨s.cell a, s.cell (a + 1), s.cell (a + 2), s.cell (a + 3)⟩).advance
  | vstore (d : VReg) (a : Nat) (ha : a + 3 < s.memLen) :
      Effect s .vstore (s.putLanes a (s.vec d)).advance
  | matSize (n : Nat) (hn : 1 ≤ n ∧ n ≤ maxLanes) : Effect s .matSize (s.setMatSize n).advance
  | pass : Effect s .pass s.advance
  | halt : Effect s .halt s.complete

/-- An answer of a meaning: an error is entered, or an effect of the shape happens. -/
def Answers (s : State) (k : Shape) (t : State) : Prop := (∃ e, t = s.enterError e) ∨ Effect s k t

theorem attempt_answers {s t : State} {k : Shape} {r : Except Err State}
    (h : attempt s r = .next t) (hr : ∀ u, r = .ok u → Effect s k u) : Answers s k t := by
  rcases (attempt_eq_next s r t).1 h with h | ⟨e, -, h⟩
  · exact .inr (hr t h)
  · exact .inl ⟨e, h⟩

theorem binaryArith_effect {f : Binary64 → Binary64 → Binary64} {o : Operands} {s t : State}
    (h : binaryArith f o s = .ok t) : Effect s .arith t := by
  simp only [binaryArith, bind_eq_ok, Except.ok.injEq] at h
  obtain ⟨-, -, d, -, v, -, rfl⟩ := h
  exact .arith d _

theorem unaryArith_effect {f : Binary64 → Binary64} {o : Operands} {s t : State}
    (h : unaryArith f o s = .ok t) : Effect s .arith t := by
  simp only [unaryArith, bind_eq_ok, Except.ok.injEq] at h
  obtain ⟨-, -, d, -, rfl⟩ := h
  exact .arith d _

theorem execDiv_answers {o : Operands} {s t : State} (h : execDiv o s = .next t) :
    Answers s .arith t := by
  refine attempt_answers h fun u hu => ?_
  simp only [bind_eq_ok, Except.ok.injEq] at hu
  obtain ⟨-, -, d, -, v, -, -, -, rfl⟩ := hu
  exact .arith d _

theorem execCmp_answers {o : Operands} {s t : State} (h : execCmp o s = .next t) :
    Answers s .compare t := by
  refine attempt_answers h fun u hu => ?_
  simp only [bind_eq_ok, Except.ok.injEq] at hu
  obtain ⟨-, -, d, -, v, -, rfl⟩ := hu
  exact .compare _ _

theorem execMov_answers {o : Operands} {s t : State} (h : execMov o s = .next t) :
    Answers s .mov t := by
  refine attempt_answers h fun u hu => ?_
  simp only [bind_eq_ok] at hu
  obtain ⟨-, -, hu⟩ := hu
  split at hu
  · simp only [movToMemory, bind_eq_ok, require_eq_ok, decide_eq_true_eq, State.memWrite_eq_ok,
      Except.ok.injEq] at hu
    obtain ⟨a, -, -, ha, v, hv, w, ⟨-, rfl⟩, rfl⟩ := hu
    exact .movMem a v _ ha hv
  · simp only [movToRegister, bind_eq_ok, Except.ok.injEq] at hu
    obtain ⟨d, -, v, -, rfl⟩ := hu
    exact .movReg d v

theorem execLoad_answers {o : Operands} {s t : State} (h : execLoad o s = .next t) :
    Answers s .load t := by
  refine attempt_answers h fun u hu => ?_
  simp only [bind_eq_ok, State.memRead_eq_ok, Except.ok.injEq] at hu
  obtain ⟨-, -, d, -, a, -, v, ⟨ha, rfl⟩, -, -, rfl⟩ := hu
  exact .load d a ha

theorem execStore_answers {o : Operands} {s t : State} (h : execStore o s = .next t) :
    Answers s .store t := by
  refine attempt_answers h fun u hu => ?_
  simp only [bind_eq_ok, State.memWrite_eq_ok, Except.ok.injEq] at hu
  obtain ⟨-, -, v, hv, a, -, w, ⟨ha, rfl⟩, rfl⟩ := hu
  exact .store a v _ ha hv

theorem execPush_answers {o : Operands} {s t : State} (h : execPush o s = .next t) :
    Answers s .push t := by
  refine attempt_answers h fun u hu => ?_
  simp only [bind_eq_ok, require_eq_ok, decide_eq_true_eq, State.pushCell_eq_ok,
    Except.ok.injEq] at hu
  obtain ⟨-, -, v, hv, -, hsp, w, ⟨ha, rfl⟩, rfl⟩ := hu
  exact .push v _ hsp ha hv

theorem execPop_answers {o : Operands} {s t : State} (h : execPop o s = .next t) :
    Answers s .pop t := by
  refine attempt_answers h fun u hu => ?_
  simp only [bind_eq_ok, require_eq_ok, decide_eq_true_eq, State.memRead_eq_ok,
    Except.ok.injEq] at hu
  obtain ⟨-, -, d, -, -, ha, v, ⟨-, rfl⟩, rfl⟩ := hu
  exact .pop d ha

theorem execDup_answers {o : Operands} {s t : State} (h : execDup o s = .next t) :
    Answers s .dup t := by
  refine attempt_answers h fun u hu => ?_
  simp only [bind_eq_ok, require_eq_ok, decide_eq_true_eq, State.memRead_eq_ok,
    State.pushCell_eq_ok, Except.ok.injEq] at hu
  obtain ⟨-, -, -, ha, -, hsp, v, ⟨-, rfl⟩, w, ⟨-, rfl⟩, rfl⟩ := hu
  exact .dup hsp ha

theorem execSwap_answers {o : Operands} {s t : State} (h : execSwap o s = .next t) :
    Answers s .swap t := by
  refine attempt_answers h fun u hu => ?_
  simp only [bind_eq_ok, require_eq_ok, decide_eq_true_eq, State.memRead_eq_ok,
    State.memWrite_eq_ok, Except.ok.injEq] at hu
  obtain ⟨-, -, -, ha, a, ⟨-, rfl⟩, b, ⟨-, rfl⟩, w, ⟨-, rfl⟩, x, ⟨-, rfl⟩, rfl⟩ := hu
  exact .swap ha

theorem execRot_answers {o : Operands} {s t : State} (h : execRot o s = .next t) :
    Answers s .rot t := by
  refine attempt_answers h fun u hu => ?_
  simp only [bind_eq_ok, require_eq_ok, decide_eq_true_eq, State.memRead_eq_ok,
    State.memWrite_eq_ok, Except.ok.injEq] at hu
  obtain ⟨-, -, -, ha, a, ⟨-, rfl⟩, b, ⟨-, rfl⟩, c, ⟨-, rfl⟩, w, ⟨-, rfl⟩, x, ⟨-, rfl⟩, y,
    ⟨-, rfl⟩, rfl⟩ := hu
  exact .rot ha

theorem condJump_effect {c : Bool} {o : Operands} {s t : State} (h : condJump c o s = .ok t) :
    Effect s .jump t := by
  simp only [condJump, bind_eq_ok] at h
  obtain ⟨-, -, h⟩ := h
  split at h
  · simp only [bind_eq_ok, State.targetOf_eq_ok, Except.ok.injEq] at h
    obtain ⟨n, ⟨id, -, hn⟩, rfl⟩ := h
    exact .jumpTaken _ n hn
  · cases h
    exact .jumpUntaken

theorem execCall_answers {o : Operands} {s t : State} (h : execCall o s = .next t) :
    Answers s .call t := by
  refine attempt_answers h fun u hu => ?_
  simp only [bind_eq_ok, require_eq_ok, decide_eq_true_eq, State.targetOf_eq_ok,
    State.pushCell_eq_ok, Except.ok.injEq] at hu
  obtain ⟨-, -, -, hsp, n, ⟨id, -, hn⟩, w, ⟨ha, rfl⟩, rfl⟩ := hu
  exact .call _ n hsp ha hn

theorem execRet_answers {o : Operands} {s t : State} (h : execRet o s = .next t) :
    Answers s .ret t := by
  refine attempt_answers h fun u hu => ?_
  simp only [bind_eq_ok, require_eq_ok, decide_eq_true_eq, State.memRead_eq_ok,
    State.returnTarget_eq_ok, Except.ok.injEq] at hu
  obtain ⟨-, -, -, ha, v, ⟨-, rfl⟩, n, ⟨hn, hle⟩, rfl⟩ := hu
  exact .ret n ha hn hle

theorem laneWise_effect {f : Binary64 → Binary64 → Binary64} {o : Operands} {s t : State}
    (hf : f = Binary64.add ∨ f = Binary64.mul) (h : laneWise f o s = .ok t) : Effect s .lanes t := by
  simp only [laneWise, bind_eq_ok, Except.ok.injEq] at h
  obtain ⟨-, -, d, -, a, -, b, -, rfl⟩ := h
  exact .lanes f d a b (hf.imp id .inl)

theorem execVdiv_answers {o : Operands} {s t : State} (h : execVdiv o s = .next t) :
    Answers s .lanes t := by
  refine attempt_answers h fun u hu => ?_
  simp only [bind_eq_ok, require_eq_ok, Except.ok.injEq, Bool.not_eq_true'] at hu
  obtain ⟨-, -, d, -, a, -, b, -, -, hz, rfl⟩ := hu
  exact .lanes _ d a b (.inr (.inr ⟨rfl, hz⟩))

theorem execVload_answers {o : Operands} {s t : State} (h : execVload o s = .next t) :
    Answers s .vload t := by
  refine attempt_answers h fun u hu => ?_
  simp only [bind_eq_ok, State.memRead4_eq_ok, Except.ok.injEq] at hu
  obtain ⟨-, -, d, -, a, -, l, ⟨ha, rfl⟩, -, -, rfl⟩ := hu
  exact .vload d a ha

theorem execVstore_answers {o : Operands} {s t : State} (h : execVstore o s = .next t) :
    Answers s .vstore t := by
  refine attempt_answers h fun u hu => ?_
  simp only [bind_eq_ok, State.memWrite4_eq_ok, Except.ok.injEq] at hu
  obtain ⟨-, -, d, -, a, -, w, ⟨ha, rfl⟩, rfl⟩ := hu
  exact .vstore d a ha

theorem execSetmatsize_answers {o : Operands} {s t : State} (h : execSetmatsize o s = .next t) :
    Answers s .matSize t := by
  refine attempt_answers h fun u hu => ?_
  simp only [bind_eq_ok, matSizeOf_eq_ok, Except.ok.injEq] at hu
  obtain ⟨-, -, v, -, n, ⟨-, hn⟩, rfl⟩ := hu
  exact .matSize n hn

/-- What any instruction can do. -/
theorem exec_effect {i : Instr} {s t : State} (h : exec i s = .next t) :
    Answers s (shapeOf i) t := by
  cases i with
  | add o => exact attempt_answers h fun _ => binaryArith_effect
  | sub o => exact attempt_answers h fun _ => binaryArith_effect
  | mul o => exact attempt_answers h fun _ => binaryArith_effect
  | div o => exact execDiv_answers h
  | and o => exact attempt_answers h fun _ => binaryArith_effect
  | or o => exact attempt_answers h fun _ => binaryArith_effect
  | xor o => exact attempt_answers h fun _ => binaryArith_effect
  | inc o => exact attempt_answers h fun _ => unaryArith_effect
  | dec o => exact attempt_answers h fun _ => unaryArith_effect
  | not o => exact attempt_answers h fun _ => unaryArith_effect
  | cmp o => exact execCmp_answers h
  | mov o => exact execMov_answers h
  | load o => exact execLoad_answers h
  | store o => exact execStore_answers h
  | push o => exact execPush_answers h
  | pop o => exact execPop_answers h
  | dup o => exact execDup_answers h
  | swap o => exact execSwap_answers h
  | rot o => exact execRot_answers h
  | jmp o => exact attempt_answers h fun _ => condJump_effect
  | je o => exact attempt_answers h fun _ => condJump_effect
  | jz o => exact attempt_answers h fun _ => condJump_effect
  | jne o => exact attempt_answers h fun _ => condJump_effect
  | jnz o => exact attempt_answers h fun _ => condJump_effect
  | jl o => exact attempt_answers h fun _ => condJump_effect
  | jg o => exact attempt_answers h fun _ => condJump_effect
  | jle o => exact attempt_answers h fun _ => condJump_effect
  | jge o => exact attempt_answers h fun _ => condJump_effect
  | call o => exact execCall_answers h
  | ret o => exact execRet_answers h
  | vadd o => exact attempt_answers h fun _ => laneWise_effect (.inl rfl)
  | vmul o => exact attempt_answers h fun _ => laneWise_effect (.inr rfl)
  | vdiv o => exact execVdiv_answers h
  | vload o => exact execVload_answers h
  | vstore o => exact execVstore_answers h
  | setmatsize o => exact execSetmatsize_answers h
  | blank => cases h; exact .inr .pass
  | label id => cases h; exact .inr .pass
  | halt => cases h; exact .inr .halt

end Sys2Proof.Machine
end

