-- ==== Sys2Proof/Laws/Encoding.lean ====
section
/-! SUPPORT. The header of an INSN statement word, field by field: each field of 30_encoding.md R106 reads
back what the encoder placed there. -/

namespace Sys2Proof

@[simp] theorem insnHeader_kind (opc : BitVec 8) (o : Operands) :
    (insnHeader opc o).extractLsb' 0 2 = 3#2 := by
  unfold insnHeader
  refine (BitVec.extractLsb'_append_eq_of_add_le (by decide)).trans ?_
  simp

@[simp] theorem insnHeader_opc (opc : BitVec 8) (o : Operands) :
    (insnHeader opc o).extractLsb' 2 8 = opc := by
  unfold insnHeader
  iterate 1 refine (BitVec.extractLsb'_append_eq_of_le (by decide)).trans ?_
  refine (BitVec.extractLsb'_append_eq_of_add_le (by decide)).trans ?_
  simp

@[simp] theorem insnHeader_nops (opc : BitVec 8) (o : Operands) :
    (insnHeader opc o).extractLsb' 10 4 = o.nops := by
  unfold insnHeader
  iterate 2 refine (BitVec.extractLsb'_append_eq_of_le (by decide)).trans ?_
  refine (BitVec.extractLsb'_append_eq_of_add_le (by decide)).trans ?_
  simp

@[simp] theorem insnHeader_cls0 (opc : BitVec 8) (o : Operands) :
    (insnHeader opc o).extractLsb' 14 4 = o.op0.fields.cls := by
  unfold insnHeader
  iterate 3 refine (BitVec.extractLsb'_append_eq_of_le (by decide)).trans ?_
  refine (BitVec.extractLsb'_append_eq_of_add_le (by decide)).trans ?_
  simp

@[simp] theorem insnHeader_ka0 (opc : BitVec 8) (o : Operands) :
    (insnHeader opc o).extractLsb' 18 1 = o.op0.fields.ka := by
  unfold insnHeader
  iterate 4 refine (BitVec.extractLsb'_append_eq_of_le (by decide)).trans ?_
  refine (BitVec.extractLsb'_append_eq_of_add_le (by decide)).trans ?_
  simp

@[simp] theorem insnHeader_ba0 (opc : BitVec 8) (o : Operands) :
    (insnHeader opc o).extractLsb' 19 2 = o.op0.fields.ba := by
  unfold insnHeader
  iterate 5 refine (BitVec.extractLsb'_append_eq_of_le (by decide)).trans ?_
  refine (BitVec.extractLsb'_append_eq_of_add_le (by decide)).trans ?_
  simp

@[simp] theorem insnHeader_kb0 (opc : BitVec 8) (o : Operands) :
    (insnHeader opc o).extractLsb' 21 1 = o.op0.fields.kb := by
  unfold insnHeader
  iterate 6 refine (BitVec.extractLsb'_append_eq_of_le (by decide)).trans ?_
  refine (BitVec.extractLsb'_append_eq_of_add_le (by decide)).trans ?_
  simp

@[simp] theorem insnHeader_bb0 (opc : BitVec 8) (o : Operands) :
    (insnHeader opc o).extractLsb' 22 2 = o.op0.fields.bb := by
  unfold insnHeader
  iterate 7 refine (BitVec.extractLsb'_append_eq_of_le (by decide)).trans ?_
  refine (BitVec.extractLsb'_append_eq_of_add_le (by decide)).trans ?_
  simp

@[simp] theorem insnHeader_cls1 (opc : BitVec 8) (o : Operands) :
    (insnHeader opc o).extractLsb' 24 4 = o.op1.fields.cls := by
  unfold insnHeader
  iterate 8 refine (BitVec.extractLsb'_append_eq_of_le (by decide)).trans ?_
  refine (BitVec.extractLsb'_append_eq_of_add_le (by decide)).trans ?_
  simp

@[simp] theorem insnHeader_ka1 (opc : BitVec 8) (o : Operands) :
    (insnHeader opc o).extractLsb' 28 1 = o.op1.fields.ka := by
  unfold insnHeader
  iterate 9 refine (BitVec.extractLsb'_append_eq_of_le (by decide)).trans ?_
  refine (BitVec.extractLsb'_append_eq_of_add_le (by decide)).trans ?_
  simp

@[simp] theorem insnHeader_ba1 (opc : BitVec 8) (o : Operands) :
    (insnHeader opc o).extractLsb' 29 2 = o.op1.fields.ba := by
  unfold insnHeader
  iterate 10 refine (BitVec.extractLsb'_append_eq_of_le (by decide)).trans ?_
  refine (BitVec.extractLsb'_append_eq_of_add_le (by decide)).trans ?_
  simp

@[simp] theorem insnHeader_kb1 (opc : BitVec 8) (o : Operands) :
    (insnHeader opc o).extractLsb' 31 1 = o.op1.fields.kb := by
  unfold insnHeader
  iterate 11 refine (BitVec.extractLsb'_append_eq_of_le (by decide)).trans ?_
  refine (BitVec.extractLsb'_append_eq_of_add_le (by decide)).trans ?_
  simp

@[simp] theorem insnHeader_bb1 (opc : BitVec 8) (o : Operands) :
    (insnHeader opc o).extractLsb' 32 2 = o.op1.fields.bb := by
  unfold insnHeader
  iterate 12 refine (BitVec.extractLsb'_append_eq_of_le (by decide)).trans ?_
  refine (BitVec.extractLsb'_append_eq_of_add_le (by decide)).trans ?_
  simp

@[simp] theorem insnHeader_cls2 (opc : BitVec 8) (o : Operands) :
    (insnHeader opc o).extractLsb' 34 4 = o.op2.shortFields.1 := by
  unfold insnHeader
  iterate 13 refine (BitVec.extractLsb'_append_eq_of_le (by decide)).trans ?_
  refine (BitVec.extractLsb'_append_eq_of_add_le (by decide)).trans ?_
  simp

@[simp] theorem insnHeader_n2 (opc : BitVec 8) (o : Operands) :
    (insnHeader opc o).extractLsb' 38 4 = o.op2.shortFields.2 := by
  unfold insnHeader
  iterate 14 refine (BitVec.extractLsb'_append_eq_of_le (by decide)).trans ?_
  refine (BitVec.extractLsb'_append_eq_of_add_le (by decide)).trans ?_
  simp

@[simp] theorem encodeInsn_kind (opc : BitVec 8) (o : Operands) : (encodeInsn opc o).kind = 3#2 :=
  insnHeader_kind opc o

@[simp] theorem encodeInsn_opc (opc : BitVec 8) (o : Operands) : (encodeInsn opc o).opc = opc :=
  insnHeader_opc opc o

end Sys2Proof
end

