-- ==== Sys2Proof/Laws/Loader.lean ====
section
/-! SUPPORT. The loader: which line registers a label name, what the label table answers for an id, and the
line that a name leads to in a text without duplicates. -/

namespace Sys2Proof.Machine

/-- A parsed line registers the name before the colon of its statement text (30_encoding.md R94). -/
theorem parseLine_defines (line : List Char) :
    (parseLine line).defines = definedLabel (statementOf line) := by
  unfold parseLine
  dsimp only
  split
  · next h => rw [List.isEmpty_iff.1 h]; rfl
  · split
    · rfl
    · split <;> simp_all [SrcLine.defines]

/-- A table that starts at an id answers nothing for a lower one. -/
theorem labelTarget_labelTable_lt (ls : List SrcLine) (names : List (List Char)) {start id : Nat}
    (h : id < start) : labelTarget (labelTable ls names start) id = none := by
  induction names generalizing start with
  | nil => rfl
  | cons name names ih =>
    unfold labelTable
    split
    · rw [labelTarget, if_neg (by omega)]; exact ih (by omega)
    · exact ih (by omega)

/-- The entry of the `k`-th name is the index of the line that defines it, if any (10_state.md R41). -/
theorem labelTarget_labelTable (ls : List SrcLine) (names : List (List Char)) (start k : Nat) :
    labelTarget (labelTable ls names start) (start + k) =
      names[k]?.bind (fun name => definitionLine name ls 0) := by
  induction names generalizing start k with
  | nil => rfl
  | cons name names ih =>
    unfold labelTable
    cases k with
    | zero =>
      simp only [Nat.add_zero, List.getElem?_cons_zero, Option.bind_some]
      split
      · next h => rw [labelTarget, if_pos rfl, h]
      · next h => rw [h]; exact labelTarget_labelTable_lt ls names (by omega)
    | succ k =>
      have next := ih (start + 1) k
      rw [Nat.add_right_comm, Nat.add_assoc] at next
      simp only [List.getElem?_cons_succ]
      split
      · rw [labelTarget, if_neg (by omega)]; exact next
      · exact next

/-- A name that no line defines leads nowhere. -/
theorem definitionLine_eq_none {name : List Char} {ls : List SrcLine} (i : Nat)
    (h : ∀ l ∈ ls, l.defines ≠ some name) : definitionLine name ls i = none := by
  induction ls generalizing i with
  | nil => rfl
  | cons l ls ih =>
    rw [definitionLine, if_neg (h l (by simp))]
    exact ih _ fun x hx => h x (by simp [hx])

/-- Without a duplicate, no line defines a name that has been seen. -/
theorem duplicateLine_seen {name : List Char} {ls : List SrcLine} {seen : List (List Char)} {i : Nat}
    (h : duplicateLine seen ls i = none) (hs : name ∈ seen) : ∀ l ∈ ls, l.defines ≠ some name := by
  induction ls generalizing seen i with
  | nil => intro l hl; cases hl
  | cons l ls ih =>
    intro x hx
    unfold duplicateLine at h
    split at h
    · next other hl =>
      split at h
      · cases h
      · next fresh =>
        rcases List.mem_cons.1 hx with rfl | hx
        · rw [hl]; rintro ⟨⟩; exact fresh (by simpa using hs)
        · exact ih h (by simp [hs]) x hx
    · next hl =>
      rcases List.mem_cons.1 hx with rfl | hx
      · rw [hl]; simp
      · exact ih h hs x hx

/-- Without a duplicate, a name leads to the line that defines it (30_encoding.md R94). -/
theorem definitionLine_eq_some {name : List Char} {ls : List SrcLine} {seen : List (List Char)}
    {first j : Nat} {l : SrcLine} (i : Nat) (h : duplicateLine seen ls first = none)
    (hj : ls[j]? = some l) (hl : l.defines = some name) : definitionLine name ls i = some (i + j) := by
  induction ls generalizing seen first i j with
  | nil => simp at hj
  | cons head ls ih =>
    cases j with
    | zero =>
      simp only [List.getElem?_cons_zero, Option.some.injEq] at hj
      subst hj
      rw [definitionLine, if_pos hl]; rfl
    | succ j =>
      simp only [List.getElem?_cons_succ] at hj
      unfold duplicateLine at h
      split at h
      · next other hh =>
        split at h
        · cases h
        · by_cases same : other = name
          · subst same
            exact absurd hl (duplicateLine_seen h (by simp) l (List.mem_of_getElem? hj))
          · rw [definitionLine, if_neg (by rw [hh]; simpa using same), ih (i + 1) h hj]
            congr 1; omega
      · next hh =>
        rw [definitionLine, if_neg (by rw [hh]; simp), ih (i + 1) h hj]
        congr 1; omega

/-- Operand 2 of a loaded statement fits its short descriptor (30_encoding.md R104, R111). -/
theorem operandsAt_short (names : List (List Char)) (opc : BitVec 8) (tokens : List (List Char)) :
    (operandsAt names opc tokens).op2.short = true := by
  have address : isAddressPos opc 2 = false := by simp [isAddressPos]
  show (operandAt names opc tokens 2).short = true
  unfold operandAt
  split
  · rfl
  · simp only [Nat.reduceBEq, Bool.and_false, address, Bool.false_eq_true, if_false, if_true]
    split <;> split <;> rfl

end Sys2Proof.Machine
end

