-- ==== Sys2Proof/Laws/PerInstr.lean ====
section
/-! SUPPORT. Statements made for every instruction, one lemma per constructor of `Instr`. -/

namespace Sys2Proof.Laws

/-- The opcode number of an instruction's row in 30_encoding.md R130; a statement kind has none. -/
def tableOpc : Instr → Option (BitVec 8)
  | .add _ => some 0x01
  | .sub _ => some 0x02
  | .mul _ => some 0x03
  | .div _ => some 0x04
  | .and _ => some 0x05
  | .or _ => some 0x06
  | .xor _ => some 0x07
  | .inc _ => some 0x08
  | .dec _ => some 0x09
  | .not _ => some 0x0A
  | .cmp _ => some 0x0B
  | .mov _ => some 0x10
  | .load _ => some 0x11
  | .store _ => some 0x12
  | .push _ => some 0x20
  | .pop _ => some 0x21
  | .dup _ => some 0x22
  | .swap _ => some 0x23
  | .rot _ => some 0x24
  | .jmp _ => some 0x30
  | .je _ => some 0x31
  | .jz _ => some 0x32
  | .jne _ => some 0x33
  | .jnz _ => some 0x34
  | .jl _ => some 0x35
  | .jg _ => some 0x36
  | .jle _ => some 0x37
  | .jge _ => some 0x38
  | .call _ => some 0x39
  | .ret _ => some 0x3A
  | .vadd _ => some 0x40
  | .vmul _ => some 0x41
  | .vdiv _ => some 0x42
  | .vload _ => some 0x43
  | .vstore _ => some 0x44
  | .setmatsize _ => some 0x50
  | .blank => none
  | .label _ => none
  | .halt => none

/-- The word of an instruction carries kind INSN and the opcode number of its row; the word of a
statement kind carries another kind (30_encoding.md R106, R107, R130). -/
def OpcodeBits.Statement (i : Instr) : Prop :=
  match tableOpc i with
  | some c => (encode i).kind = 3#2 ∧ (encode i).opc = c
  | none => (encode i).kind ≠ 3#2

theorem OpcodeBits.add (o : Operands) : OpcodeBits.Statement (.add o) :=
  ⟨encodeInsn_kind _ o, encodeInsn_opc _ o⟩

theorem OpcodeBits.sub (o : Operands) : OpcodeBits.Statement (.sub o) :=
  ⟨encodeInsn_kind _ o, encodeInsn_opc _ o⟩

theorem OpcodeBits.mul (o : Operands) : OpcodeBits.Statement (.mul o) :=
  ⟨encodeInsn_kind _ o, encodeInsn_opc _ o⟩

theorem OpcodeBits.div (o : Operands) : OpcodeBits.Statement (.div o) :=
  ⟨encodeInsn_kind _ o, encodeInsn_opc _ o⟩

theorem OpcodeBits.and (o : Operands) : OpcodeBits.Statement (.and o) :=
  ⟨encodeInsn_kind _ o, encodeInsn_opc _ o⟩

theorem OpcodeBits.or (o : Operands) : OpcodeBits.Statement (.or o) :=
  ⟨encodeInsn_kind _ o, encodeInsn_opc _ o⟩

theorem OpcodeBits.xor (o : Operands) : OpcodeBits.Statement (.xor o) :=
  ⟨encodeInsn_kind _ o, encodeInsn_opc _ o⟩

theorem OpcodeBits.inc (o : Operands) : OpcodeBits.Statement (.inc o) :=
  ⟨encodeInsn_kind _ o, encodeInsn_opc _ o⟩

theorem OpcodeBits.dec (o : Operands) : OpcodeBits.Statement (.dec o) :=
  ⟨encodeInsn_kind _ o, encodeInsn_opc _ o⟩

theorem OpcodeBits.not (o : Operands) : OpcodeBits.Statement (.not o) :=
  ⟨encodeInsn_kind _ o, encodeInsn_opc _ o⟩

theorem OpcodeBits.cmp (o : Operands) : OpcodeBits.Statement (.cmp o) :=
  ⟨encodeInsn_kind _ o, encodeInsn_opc _ o⟩

theorem OpcodeBits.mov (o : Operands) : OpcodeBits.Statement (.mov o) :=
  ⟨encodeInsn_kind _ o, encodeInsn_opc _ o⟩

theorem OpcodeBits.load (o : Operands) : OpcodeBits.Statement (.load o) :=
  ⟨encodeInsn_kind _ o, encodeInsn_opc _ o⟩

theorem OpcodeBits.store (o : Operands) : OpcodeBits.Statement (.store o) :=
  ⟨encodeInsn_kind _ o, encodeInsn_opc _ o⟩

theorem OpcodeBits.push (o : Operands) : OpcodeBits.Statement (.push o) :=
  ⟨encodeInsn_kind _ o, encodeInsn_opc _ o⟩

theorem OpcodeBits.pop (o : Operands) : OpcodeBits.Statement (.pop o) :=
  ⟨encodeInsn_kind _ o, encodeInsn_opc _ o⟩

theorem OpcodeBits.dup (o : Operands) : OpcodeBits.Statement (.dup o) :=
  ⟨encodeInsn_kind _ o, encodeInsn_opc _ o⟩

theorem OpcodeBits.swap (o : Operands) : OpcodeBits.Statement (.swap o) :=
  ⟨encodeInsn_kind _ o, encodeInsn_opc _ o⟩

theorem OpcodeBits.rot (o : Operands) : OpcodeBits.Statement (.rot o) :=
  ⟨encodeInsn_kind _ o, encodeInsn_opc _ o⟩

theorem OpcodeBits.jmp (o : Operands) : OpcodeBits.Statement (.jmp o) :=
  ⟨encodeInsn_kind _ o, encodeInsn_opc _ o⟩

theorem OpcodeBits.je (o : Operands) : OpcodeBits.Statement (.je o) :=
  ⟨encodeInsn_kind _ o, encodeInsn_opc _ o⟩

theorem OpcodeBits.jz (o : Operands) : OpcodeBits.Statement (.jz o) :=
  ⟨encodeInsn_kind _ o, encodeInsn_opc _ o⟩

theorem OpcodeBits.jne (o : Operands) : OpcodeBits.Statement (.jne o) :=
  ⟨encodeInsn_kind _ o, encodeInsn_opc _ o⟩

theorem OpcodeBits.jnz (o : Operands) : OpcodeBits.Statement (.jnz o) :=
  ⟨encodeInsn_kind _ o, encodeInsn_opc _ o⟩

theorem OpcodeBits.jl (o : Operands) : OpcodeBits.Statement (.jl o) :=
  ⟨encodeInsn_kind _ o, encodeInsn_opc _ o⟩

theorem OpcodeBits.jg (o : Operands) : OpcodeBits.Statement (.jg o) :=
  ⟨encodeInsn_kind _ o, encodeInsn_opc _ o⟩

theorem OpcodeBits.jle (o : Operands) : OpcodeBits.Statement (.jle o) :=
  ⟨encodeInsn_kind _ o, encodeInsn_opc _ o⟩

theorem OpcodeBits.jge (o : Operands) : OpcodeBits.Statement (.jge o) :=
  ⟨encodeInsn_kind _ o, encodeInsn_opc _ o⟩

theorem OpcodeBits.call (o : Operands) : OpcodeBits.Statement (.call o) :=
  ⟨encodeInsn_kind _ o, encodeInsn_opc _ o⟩

theorem OpcodeBits.ret (o : Operands) : OpcodeBits.Statement (.ret o) :=
  ⟨encodeInsn_kind _ o, encodeInsn_opc _ o⟩

theorem OpcodeBits.vadd (o : Operands) : OpcodeBits.Statement (.vadd o) :=
  ⟨encodeInsn_kind _ o, encodeInsn_opc _ o⟩

theorem OpcodeBits.vmul (o : Operands) : OpcodeBits.Statement (.vmul o) :=
  ⟨encodeInsn_kind _ o, encodeInsn_opc _ o⟩

theorem OpcodeBits.vdiv (o : Operands) : OpcodeBits.Statement (.vdiv o) :=
  ⟨encodeInsn_kind _ o, encodeInsn_opc _ o⟩

theorem OpcodeBits.vload (o : Operands) : OpcodeBits.Statement (.vload o) :=
  ⟨encodeInsn_kind _ o, encodeInsn_opc _ o⟩

theorem OpcodeBits.vstore (o : Operands) : OpcodeBits.Statement (.vstore o) :=
  ⟨encodeInsn_kind _ o, encodeInsn_opc _ o⟩

theorem OpcodeBits.setmatsize (o : Operands) : OpcodeBits.Statement (.setmatsize o) :=
  ⟨encodeInsn_kind _ o, encodeInsn_opc _ o⟩

theorem OpcodeBits.blank : OpcodeBits.Statement .blank :=
  show (0#64).extractLsb' 0 2 ≠ 3#2 by decide

theorem OpcodeBits.label (id : BitVec 16) : OpcodeBits.Statement (.label id) :=
  show (1#64).extractLsb' 0 2 ≠ 3#2 by decide

theorem OpcodeBits.halt : OpcodeBits.Statement .halt :=
  show (2#64).extractLsb' 0 2 ≠ 3#2 by decide

end Sys2Proof.Laws
end

