-- ==== Sys2Proof/Tests/Slice0.lean ====
section
/-! SUPPORT. Tests: what WellFormed refuses, words written out from the spec's encodings, single steps with
the values of 95_test_vectors.md, and for each obligation with hypotheses a concrete state and operands
that meet them together. -/

set_option Elab.async false

namespace Sys2Proof.Tests

open Sys2Proof Sys2Proof.Machine

/-! ### WellFormed -/

/-- Operand 2 has no room for a literal (30_encoding.md R111). -/
theorem test_wellFormed_refuses_literal :
    Instr.WellFormed (.vadd ⟨3, .vreg 0, .vreg 1, .imm 5 .dec⟩) = false := by decide

/-- Operand 2 has no room for a memory reference of one part (30_encoding.md R111). -/
theorem test_wellFormed_refuses_mem1 :
    Instr.WellFormed (.add ⟨3, .reg 0, .reg 1, .mem1 (.reg 2)⟩) = false := by decide

/-- Operand 2 has no room for a memory reference of two parts (30_encoding.md R111). -/
theorem test_wellFormed_refuses_mem2 :
    Instr.WellFormed (.mov ⟨3, .reg 0, .reg 1, .mem2 (.reg 2) (.reg 3)⟩) = false := by decide

/-- Operand 2 has no room for a label (30_encoding.md R111). -/
theorem test_wellFormed_refuses_label :
    Instr.WellFormed (.jmp ⟨3, .label 0, .none, .label 1⟩) = false := by decide

/-- Wrong counts and classes are well formed, not legal: they are run-time errors (30_encoding.md R132). -/
theorem test_wellFormed_keeps_runtime_errors :
    Instr.WellFormed (.add ⟨15, .label 3, .bad, .vreg 9⟩) = true ∧
    Instr.Legal (.add ⟨2, .label 3, .imm 5 .dec, .none⟩) = false ∧
    Instr.Legal (.add ⟨2, .reg 8, .imm 5 .dec, .none⟩) = false ∧
    Instr.Legal (.add ⟨2, .reg 7, .imm 5 .hex, .none⟩) = false ∧
    Instr.Legal (.add ⟨2, .reg 7, .imm 5 .dec, .none⟩) = true := by decide

/-! ### Decoding words written out from the spec -/

/-- Words of the family written out field by field from 30_encoding.md R106 (41_arithmetic.md); the
first in binary. -/
theorem test_decode_arithmetic :
    decode ⟨0b10010000000000100100000000111, 1, 0, 5, 0⟩ =
      .ok (.add ⟨2, .reg 1, .imm 5 .dec, .none⟩) ∧
    decode ⟨0x100480B, 2, 0, 7, 0⟩ =
      .ok (.sub ⟨2, .reg 2, .reg 7, .none⟩) ∧
    decode ⟨0x1200480F, 3, 0, 9, 0⟩ =
      .ok (.mul ⟨2, .reg 3, .imm 9 .dec, .none⟩) ∧
    decode ⟨0x1004813, 4, 0, 0, 0⟩ =
      .ok (.div ⟨2, .reg 4, .reg 0, .none⟩) ∧
    decode ⟨0x12004817, 5, 0, 60, 0⟩ =
      .ok (.and ⟨2, .reg 5, .imm 60 .dec, .none⟩) ∧
    decode ⟨0x100481B, 6, 0, 1, 0⟩ =
      .ok (.or ⟨2, .reg 6, .reg 1, .none⟩) ∧
    decode ⟨0x1200481F, 7, 0, 15, 0⟩ =
      .ok (.xor ⟨2, .reg 7, .imm 15 .dec, .none⟩) ∧
    decode ⟨0x4423, 1, 0, 0, 0⟩ =
      .ok (.inc ⟨1, .reg 1, .none, .none⟩) ∧
    decode ⟨0x4427, 2, 0, 0, 0⟩ =
      .ok (.dec ⟨1, .reg 2, .none, .none⟩) ∧
    decode ⟨0x442B, 3, 0, 0, 0⟩ =
      .ok (.not ⟨1, .reg 3, .none, .none⟩) ∧
    decode ⟨0x1200482F, 4, 0, 300, 0⟩ =
      .ok (.cmp ⟨2, .reg 4, .imm 300 .dec, .none⟩) := by decide

/-- Words of the family written out field by field from 30_encoding.md R106 (42_data_movement.md); the
first in binary. -/
theorem test_decode_data_movement :
    decode ⟨0b110010001000010000100001000011, 2, 3, 4, 0⟩ =
      .ok (.mov ⟨2, .mem2 (.reg 2) (.imm 3 .dec), .imm 4 .hex, .none⟩) ∧
    decode ⟨0x13004847, 3, 0, 113, 0⟩ =
      .ok (.load ⟨2, .reg 3, .mem1 (.imm 113 .dec), .none⟩) ∧
    decode ⟨0x3414884B, 1, 0, 7, 6⟩ =
      .ok (.store ⟨2, .imm 1 .bin, .mem2 (.imm 7 .hex) (.reg 6), .none⟩) := by decide

/-- Words of the family written out field by field from 30_encoding.md R106 (43_stack.md); the
first in binary. -/
theorem test_decode_stack :
    decode ⟨0b11001000010010000011, 16, 0, 0, 0⟩ =
      .ok (.push ⟨1, .imm 16 .hex, .none, .none⟩) ∧
    decode ⟨0x4487, 7, 0, 0, 0⟩ =
      .ok (.pop ⟨1, .reg 7, .none, .none⟩) ∧
    decode ⟨0x8B, 0, 0, 0, 0⟩ =
      .ok (.dup ⟨0, .none, .none, .none⟩) ∧
    decode ⟨0x8F, 0, 0, 0, 0⟩ =
      .ok (.swap ⟨0, .none, .none, .none⟩) ∧
    decode ⟨0x93, 0, 0, 0, 0⟩ =
      .ok (.rot ⟨0, .none, .none, .none⟩) := by decide

/-- Words of the family written out field by field from 30_encoding.md R106 (44_control_flow.md); the
first in binary. -/
theorem test_decode_control_flow :
    decode ⟨0b11000010011000011, 0, 0, 0, 0⟩ =
      .ok (.jmp ⟨1, .label 0, .none, .none⟩) ∧
    decode ⟨0x184C7, 1, 0, 0, 0⟩ =
      .ok (.je ⟨1, .label 1, .none, .none⟩) ∧
    decode ⟨0x184CB, 2, 0, 0, 0⟩ =
      .ok (.jz ⟨1, .label 2, .none, .none⟩) ∧
    decode ⟨0x184CF, 3, 0, 0, 0⟩ =
      .ok (.jne ⟨1, .label 3, .none, .none⟩) ∧
    decode ⟨0x184D3, 4, 0, 0, 0⟩ =
      .ok (.jnz ⟨1, .label 4, .none, .none⟩) ∧
    decode ⟨0x184D7, 5, 0, 0, 0⟩ =
      .ok (.jl ⟨1, .label 5, .none, .none⟩) ∧
    decode ⟨0x184DB, 6, 0, 0, 0⟩ =
      .ok (.jg ⟨1, .label 6, .none, .none⟩) ∧
    decode ⟨0x184DF, 7, 0, 0, 0⟩ =
      .ok (.jle ⟨1, .label 7, .none, .none⟩) ∧
    decode ⟨0x184E3, 65535, 0, 0, 0⟩ =
      .ok (.jge ⟨1, .label 65535, .none, .none⟩) ∧
    decode ⟨0x184E7, 9, 0, 0, 0⟩ =
      .ok (.call ⟨1, .label 9, .none, .none⟩) ∧
    decode ⟨0xEB, 0, 0, 0, 0⟩ =
      .ok (.ret ⟨0, .none, .none, .none⟩) := by decide

/-- Words of the family written out field by field from 30_encoding.md R106 (45_simd.md); the
first in binary. -/
theorem test_decode_simd :
    decode ⟨0b1001010000000101000000010100110100000011, 0, 0, 1, 0⟩ =
      .ok (.vadd ⟨3, .vreg 0, .vreg 1, .vreg 2⟩) ∧
    decode ⟨0xD405014D07, 1, 0, 2, 0⟩ =
      .ok (.vmul ⟨3, .vreg 1, .vreg 2, .vreg 3⟩) ∧
    decode ⟨0x5405014D0B, 3, 0, 0, 0⟩ =
      .ok (.vdiv ⟨3, .vreg 3, .vreg 0, .vreg 1⟩) ∧
    decode ⟨0x8401490F, 2, 0, 2, 4⟩ =
      .ok (.vload ⟨2, .vreg 2, .mem2 (.reg 2) (.imm 4 .dec), .none⟩) ∧
    decode ⟨0x13014913, 3, 0, 112, 0⟩ =
      .ok (.vstore ⟨2, .vreg 3, .mem1 (.imm 112 .dec), .none⟩) := by decide

/-- Words of the family written out field by field from 30_encoding.md R106 (46_config.md); the
first in binary. -/
theorem test_decode_config :
    decode ⟨0b101001000010101000011, 4, 0, 0, 0⟩ =
      .ok (.setmatsize ⟨1, .imm 4 .bin, .none, .none⟩) := by decide

/-- The statement kinds (30_encoding.md R107). -/
theorem test_decode_kinds :
    decode ⟨0, 0, 0, 0, 0⟩ = .ok .blank ∧
    decode ⟨1, 0x1FFFF, 0, 0, 0⟩ = .ok (.label 0xFFFF) ∧
    decode ⟨2, 0, 0, 0, 0⟩ = .ok .halt := by decide

/-- Words of program P1 and P3 of 95_test_vectors.md. -/
theorem test_decode_programs :
    decode ⟨0x12004843, 0, 0, 0, 0⟩ = .ok (.mov ⟨2, .reg 0, .imm 0 .dec, .none⟩) ∧
    decode ⟨0x4427, 1, 0, 0, 0⟩ = .ok (.dec ⟨1, .reg 1, .none, .none⟩) ∧
    decode ⟨0x184D3, 0, 0, 0, 0⟩ = .ok (.jnz ⟨1, .label 0, .none, .none⟩) ∧
    decode ⟨0x5204C843, 0x6B, 0, 1, 0⟩ =
      .ok (.mov ⟨2, .mem1 (.imm 0x6B .dec), .imm 1 .bin, .none⟩) ∧
    decode ⟨0x9405014D0B, 3, 0, 1, 0⟩ = .ok (.vdiv ⟨3, .vreg 3, .vreg 1, .vreg 2⟩) := by decide

/-- An unlisted opcode is rejected by name, a reserved class or base is BAD, and a class of the short
descriptor that it cannot hold is BAD (30_encoding.md R109 to R111, R132). -/
theorem test_decode_reserved :
    decode ⟨0x3FF, 0, 0, 0, 0⟩ = .error (.unknownInstruction 0xFF) ∧
    decode ⟨0x1C423, 0, 0, 0, 0⟩ = .ok (.inc ⟨1, .bad, .none, .none⟩) ∧
    decode ⟨0x1C8483, 5, 0, 0, 0⟩ = .ok (.push ⟨1, .bad, .none, .none⟩) ∧
    decode ⟨0x800000008B, 0, 0, 0, 0⟩ = .ok (.dup ⟨0, .none, .none, .none⟩) ∧
    decode ⟨0x80000008B, 0, 0, 0, 0⟩ = .ok (.dup ⟨0, .none, .none, .bad⟩) := by decide

/-- Opcode-table words: the operand words above the row's bits are 0. -/
theorem test_table_words :
    decodeTableWord 16 0x007 = some (.add ⟨0, .none, .none, .none⟩) ∧
    decodeTableWord 16 0x0EB = some (.ret ⟨0, .none, .none, .none⟩) ∧
    decodeTableWord 8 0x02 = some .halt ∧
    decodeTableWord 320 (0x184D3 + 3 * 2 ^ 64) = some (.jnz ⟨1, .label 3, .none, .none⟩) ∧
    decodeTableWord 16 0x3FF = none := by decide

/-! ### Single steps -/

/-- The reset state with a width and the contents of r0 and r1. -/
def pre (w : Width) (r0 r1 : RegWord) : State :=
  { State.reset with W := w, x := ⟨r0, r1, 0, 0, 0, 0, 0, 999⟩ }

/-- The reset state with SP and cells. -/
def stacked (sp : RegWord) (m : Memory) : State :=
  { State.reset with x := ⟨7, 3, 0, 0, 0, 0, 0, sp⟩, mem := m }

/-- A view of the next state. -/
def got {α : Type} (r : Result) (f : State → α) : Option α :=
  match r with
  | .next t => some (f t)
  | .fault _ => none
  | .refused _ => none

/-- The next step runs the placed word: RET of the table's word jumps to the index 0 that the bottom
cell holds (vector J11). -/
theorem test_withFetchWord :
    got (step (State.reset.withFetchWord 16 0x0EB)) id =
      some { State.reset with
        prog := [⟨0xEB, 0, 0, 0, 0⟩]
        x := ⟨0, 0, 0, 0, 0, 0, 0, 1000⟩
        runState := .paused } := by decide +kernel

/-- r0 and the three flags. -/
def arithView (t : State) : Nat × Bool × Bool × Bool := (t.reg .r0, t.FLAGS, t.FLAG, t.OVERFLOW)

/-- The error register, the line and the cursor. -/
def errView (t : State) : Nat × Nat × Nat := (t.errNumber, t.errLine, t.pc)

/-- SP and three cells from an address on. -/
def stackView (a : Nat) (t : State) : Nat × Binary64 × Binary64 × Binary64 :=
  (t.sp, t.cell a, t.cell (a + 1), t.cell (a + 2))

/-- A whole number as a cell or lane. -/
def num (k : Nat) : Binary64 := Binary64.ofNat k

/-- Vectors A1 and A3: the wrap sets OVERFLOW and never FLAGS. -/
theorem test_add_wraps :
    got (exec (.add ⟨2, .reg 0, .imm 100 .dec, .none⟩) (pre .w8 200 0)) arithView =
      some (44, false, false, true) ∧
    got (exec (.add ⟨2, .reg 0, .imm 100 .dec, .none⟩) (pre .w8 156 0)) arithView =
      some (0, false, false, true) := by decide +kernel

/-- Vector A41: a hexadecimal literal is no arithmetic source. -/
theorem test_add_hex : got (exec (.add ⟨2, .reg 0, .imm 16 .hex, .none⟩) (pre .w32 0 0)) errView =
    some (2, 1, 0) := by decide +kernel

/-- Vector A7: a literal above MAXVALUE is used whole. -/
theorem test_sub_negative :
    got (exec (.sub ⟨2, .reg 0, .imm 300 .dec, .none⟩) (pre .w8 10 0)) arithView =
      some (222, false, true, true) := by decide +kernel

/-- Vectors A8 and A11: the product above 2^53 is rounded before it is masked. -/
theorem test_mul_rounds :
    got (exec (.mul ⟨2, .reg 0, .reg 1, .none⟩) (pre .w8 20 20)) arithView =
      some (144, false, false, true) ∧
    got (exec (.mul ⟨2, .reg 0, .reg 1, .none⟩) (pre .w32 4294967295 4294967295)) arithView =
      some (0, false, false, true) := by decide +kernel

/-- Vector A13: a quotient 0.5 stores 0 and leaves FLAGS clear. -/
theorem test_div_fraction :
    got (exec (.div ⟨2, .reg 0, .imm 2 .dec, .none⟩) (pre .w8 1 0)) arithView =
      some (0, false, false, false) := by decide +kernel

/-- Vector A15: division by 0. -/
theorem test_div_zero : got (exec (.div ⟨2, .reg 0, .reg 1, .none⟩) (pre .w8 9 0)) errView =
    some (7, 1, 0) := by decide +kernel

/-- Vectors A18, A21 and A22. -/
theorem test_bitwise :
    got (exec (.and ⟨2, .reg 0, .imm 60 .dec, .none⟩) (pre .w8 240 0)) arithView =
      some (48, false, false, false) ∧
    got (exec (.or ⟨2, .reg 0, .imm 256 .dec, .none⟩) (pre .w8 1 0)) arithView =
      some (1, false, false, true) ∧
    got (exec (.xor ⟨2, .reg 0, .imm 255 .dec, .none⟩) (pre .w8 255 0)) arithView =
      some (0, true, false, false) := by decide +kernel

/-- Vectors A24, A27 and A31. -/
theorem test_unary :
    got (exec (.inc ⟨1, .reg 0, .none, .none⟩) (pre .w8 255 0)) arithView =
      some (0, false, false, true) ∧
    got (exec (.dec ⟨1, .reg 0, .none, .none⟩) (pre .w8 0 0)) arithView =
      some (255, false, true, false) ∧
    got (exec (.not ⟨1, .reg 0, .none, .none⟩) (pre .w8 255 0)) arithView =
      some (0, false, true, true) := by decide +kernel

/-- Vector A38: the literal of CMP is not masked. -/
theorem test_cmp_unmasked :
    got (exec (.cmp ⟨2, .reg 0, .imm 300 .dec, .none⟩) (pre .w8 44 0)) arithView =
      some (44, false, true, false) := by decide +kernel

/-- Vectors M1, M4 and M7. -/
theorem test_mov :
    got (exec (.mov ⟨2, .reg 0, .imm 300 .dec, .none⟩) (pre .w8 0 0)) (State.reg · .r0) = some 44 ∧
    got (exec (.mov ⟨2, .mem1 (.imm 5 .dec), .imm 300 .dec, .none⟩) (pre .w8 0 0))
      (State.cell · 5) = some (num 300) ∧
    got (exec (.mov ⟨2, .mem1 (.reg 0), .reg 0, .none⟩) (pre .w32 7 0)) (State.cell · 7) =
      some (num 7) := by decide +kernel

/-- Vectors M14 and M33. -/
theorem test_load :
    got (exec (.load ⟨2, .reg 0, .mem2 (.reg 1) (.imm 1 .dec), .none⟩)
      { pre .w32 0 20 with mem := [(21, num 8)] }) (State.reg · .r0) = some 8 ∧
    got (exec (.load ⟨2, .reg 0, .mem1 (.imm 3 .dec), .none⟩)
      { pre .w32 0 20 with mem := [(3, .nan)] }) errView = some (4, 1, 0) := by decide +kernel

/-- Vectors M20 and M38. -/
theorem test_store :
    got (exec (.store ⟨2, .imm 300 .dec, .mem1 (.imm 7 .dec), .none⟩) (pre .w8 0 0))
      (State.cell · 7) = some (num 300) ∧
    got (exec (.store ⟨2, .reg 0, .mem1 (.imm 1000 .dec), .none⟩) (pre .w8 0 0)) errView =
      some (3, 1, 0) := by decide +kernel

/-- Vectors K3 and K12. -/
theorem test_push :
    got (exec (.push ⟨1, .reg 7, .none, .none⟩) (stacked 999 [])) (stackView 997) =
      some (998, .zero, num 999, .zero) ∧
    got (exec (.push ⟨1, .imm 1 .dec, .none, .none⟩) (stacked 2000 [])) errView =
      some (3, 1, 0) := by decide +kernel

/-- Vectors K5 and K10: POP SP ends with the popped value. -/
theorem test_pop :
    got (exec (.pop ⟨1, .reg 1, .none, .none⟩) (stacked 999 [])) (stackView 997) =
      some (1000, .zero, .zero, .zero) ∧
    got (exec (.pop ⟨1, .reg 7, .none, .none⟩) (stacked 998 [(998, num 5)])) State.sp = some 5 := by
  decide +kernel

/-- Vectors K14, K18 and K21. -/
theorem test_stack_permutes :
    got (exec (.dup ⟨0, .none, .none, .none⟩) (stacked 998 [(998, num 7)])) (stackView 997) =
      some (997, num 7, num 7, .zero) ∧
    got (exec (.swap ⟨0, .none, .none, .none⟩) (stacked 997 [(997, num 1), (998, num 2)]))
      (stackView 997) = some (997, num 2, num 1, .zero) ∧
    got (exec (.rot ⟨0, .none, .none, .none⟩)
      (stacked 996 [(996, num 1), (997, num 2), (998, num 3)])) (stackView 996) =
      some (996, num 2, num 3, num 1) := by decide +kernel

/-- Vectors K17, K19 and K23. -/
theorem test_stack_errors :
    got (exec (.dup ⟨0, .none, .none, .none⟩) (stacked 0 [])) errView = some (5, 1, 0) ∧
    got (exec (.swap ⟨0, .none, .none, .none⟩) (stacked 999 [])) errView = some (6, 1, 0) ∧
    got (exec (.rot ⟨0, .none, .none, .none⟩) (stacked 998 [])) errView = some (6, 1, 0) := by
  decide +kernel

/-- The condition table of section 2.4: the cursor after each jump to a label at 4, with the flags that
CMP leaves for less, equal and greater. -/
theorem test_conditions :
    ([Instr.jmp, Instr.je, Instr.jz, Instr.jne, Instr.jnz, Instr.jl, Instr.jg, Instr.jle, Instr.jge].map
      fun f => [(false, true), (true, false), (false, false)].map fun p =>
        got (exec (f ⟨1, .label 0, .none, .none⟩)
          { State.reset with FLAGS := p.1, FLAG := p.2, labels := [(0, 4)], pc := 1 }) State.pc) =
    [[some 4, some 4, some 4], [some 2, some 4, some 2], [some 2, some 4, some 2],
      [some 4, some 2, some 4], [some 4, some 2, some 4], [some 4, some 2, some 2],
      [some 2, some 2, some 4], [some 4, some 4, some 2], [some 2, some 4, some 4]] := by
  decide +kernel

/-- Vectors J8 and J9. -/
theorem test_call :
    got (exec (.call ⟨1, .label 0, .none, .none⟩) { State.reset with labels := [(0, 1)] })
      (fun t => (t.pc, t.sp, t.cell 998)) = some (1, 998, num 1) ∧
    got (exec (.call ⟨1, .label 0, .none, .none⟩) State.reset) errView = some (9, 1, 0) := by
  decide +kernel

/-- Vectors J13 and J14: a value that is no cursor position is not popped. -/
theorem test_ret_invalid :
    got (exec (.ret ⟨0, .none, .none, .none⟩)
      (stacked 998 [(998, .fin false (Binary64.unit * 5 / 2))])) (fun t => (errView t, t.sp)) =
      some ((10, 1, 0), 998) ∧
    got (exec (.ret ⟨0, .none, .none, .none⟩)
      { stacked 998 [(998, num 2)] with prog := [⟨0xEB, 0, 0, 0, 0⟩] }) errView =
      some (10, 1, 0) := by decide +kernel

/-- Vectors V1, V18 and V19: lanes, overflow to infinity, infinity times zero. -/
theorem test_lanes :
    got (exec (.vadd ⟨3, .vreg 0, .vreg 1, .vreg 2⟩)
      { State.reset with
        v := ⟨Lanes.zero, ⟨num 1, num 2, num 3, num 4⟩, ⟨num 4, num 3, num 2, num 1⟩, Lanes.zero⟩ })
      (State.vec · .v0) = some ⟨num 5, num 5, num 5, num 5⟩ ∧
    got (exec (.vmul ⟨3, .vreg 0, .vreg 0, .vreg 0⟩)
      { State.reset with
        v := ⟨⟨num (2 ^ 256 * 2 ^ 256), .inf false, .nan, num 3⟩, Lanes.zero, Lanes.zero,
          Lanes.zero⟩ })
      (State.vec · .v0) = some ⟨.inf false, .inf false, .nan, num 9⟩ := by decide +kernel

/-- Vectors V3 and V4: one zero lane stops the whole division; 1/4 and 3/2 are exact. -/
theorem test_vdiv :
    got (exec (.vdiv ⟨3, .vreg 0, .vreg 1, .vreg 2⟩)
      { State.reset with
        v := ⟨Lanes.zero, ⟨num 1, num 2, num 3, num 4⟩, ⟨num 4, num 3, .zero, num 1⟩,
          Lanes.zero⟩ }) errView = some (7, 1, 0) ∧
    got (exec (.vdiv ⟨3, .vreg 3, .vreg 1, .vreg 2⟩)
      { State.reset with
        v := ⟨Lanes.zero, ⟨num 1, num 2, num 3, num 4⟩, ⟨num 4, num 3, num 2, num 1⟩,
          Lanes.zero⟩ }) (fun t => ((t.vec .v3).l0, (t.vec .v3).l2, (t.vec .v3).l3)) =
      some (.fin false (Binary64.unit / 4), .fin false (Binary64.unit * 3 / 2), num 4) := by
  decide +kernel

/-- Vectors V7, V8 and V9. -/
theorem test_vload :
    got (exec (.vload ⟨2, .vreg 1, .mem1 (.imm 996 .dec), .none⟩) (stacked 999 [(999, num 4)]))
      (State.vec · .v1) = some ⟨.zero, .zero, .zero, num 4⟩ ∧
    got (exec (.vload ⟨2, .vreg 1, .mem1 (.imm 997 .dec), .none⟩) State.reset) errView =
      some (3, 1, 0) := by decide +kernel

/-- Vectors V10 and V12. -/
theorem test_vstore :
    got (exec (.vstore ⟨2, .vreg 0, .mem1 (.imm 108 .dec), .none⟩)
      { State.reset with v := ⟨⟨num 5, num 6, .zero, num 8⟩, Lanes.zero, Lanes.zero, Lanes.zero⟩ })
      State.mem = some [(108, num 5), (109, num 6), (111, num 8)] ∧
    got (exec (.vstore ⟨2, .vreg 0, .mem2 (.reg 7) (.imm 0 .dec), .none⟩) State.reset) errView =
      some (3, 1, 0) := by decide +kernel

/-- Vectors X2 and X5. -/
theorem test_setmatsize :
    got (exec (.setmatsize ⟨1, .imm 1 .bin, .none, .none⟩) State.reset) State.MATSIZE = some 1 ∧
    got (exec (.setmatsize ⟨1, .imm 5 .dec, .none, .none⟩) State.reset)
      (fun t => (errView t, t.MATSIZE)) = some ((2, 1, 0), 4) := by decide +kernel

/-- Vector Q13: a step skips blank statements before the statement it executes, and the last step ends at
PROGLEN. -/
theorem test_step_blank :
    got (step { State.reset with prog := [⟨0, 0, 0, 0, 0⟩, ⟨2, 0, 0, 0, 0⟩] }) id =
      some { State.reset with
        prog := [⟨0, 0, 0, 0, 0⟩, ⟨2, 0, 0, 0, 0⟩], pc := 1, runState := .stoppedSuccess } ∧
    got (step { State.reset with prog := [⟨0, 0, 0, 0, 0⟩] }) id =
      some { State.reset with
        prog := [⟨0, 0, 0, 0, 0⟩], pc := 1, runState := .stoppedSuccess } := by decide +kernel

/-- The text of vector M19 and its level-W word, and a label line (30_encoding.md R104). -/
theorem test_load_text :
    got (State.reset.loadProgram "x: NOP\n STORE 0xFF, r1+2 ; c\nJMP x".toList)
      (fun t => (t.prog, t.labels)) =
      some ([⟨1, 0, 0, 0, 0⟩, ⟨0x840C884B, 0xFF, 0, 1, 2⟩, ⟨0x184C3, 0, 0, 0, 0⟩], [(0, 0)]) := by
  decide +kernel

/-! ### Witnesses: the hypotheses of each obligation can be met together -/

/-- A state in the middle of a run: flags set, three cells listed, a NaN among them, four vector
registers, and a program with a label, an ADD, a BLANK, a second label, an unlisted opcode and END. -/
def sample : State :=
  { State.reset with
    x := ⟨5, 0, 4294967295, 20, 0, 2, 7, 998⟩
    FLAGS := true
    OVERFLOW := true
    v := ⟨⟨num 1, num 2, num 3, num 4⟩, ⟨num 4, num 3, num 2, num 1⟩, ⟨num 1, .zero, num 1, num 1⟩,
      Lanes.zero⟩
    mem := [(2, num 7), (3, .nan), (998, num 2), (999, num 6)]
    prog := [⟨1, 0, 0, 0, 0⟩, ⟨0x1004807, 0, 0, 1, 0⟩, ⟨0, 0, 0, 0, 0⟩, ⟨1, 2, 0, 0, 0⟩,
      ⟨0x3FF, 0, 0, 0, 0⟩, ⟨2, 0, 0, 0, 0⟩]
    labels := [(0, 0), (2, 3)]
    pc := 1 }

/-- The sample state with another SP. -/
def sampleSP (sp : RegWord) : State := sample.setReg .sp sp

/-- The ADD at the cursor of the sample state. -/
def sampleAdd : Instr := .add ⟨2, .reg 0, .reg 1, .none⟩

theorem sample_wf : Memory.wf sample.mem := by decide +kernel

theorem sampleSP_wf (sp : RegWord) : Memory.wf (sampleSP sp).mem := sample_wf

theorem num_proper (k : Nat) : (num k).Proper := Binary64.ofNat_proper k

/-- A whole number or NaN, as the cells and lanes of the sample state are. -/
def Plain (v : Binary64) : Prop := v = .nan ∨ ∃ k, v = num k

theorem Plain.proper {v : Binary64} (h : Plain v) : v.Proper := by
  rcases h with rfl | ⟨k, rfl⟩
  · exact ⟨trivial, trivial⟩
  · exact num_proper k

theorem num_plain (k : Nat) : Plain (num k) := .inr ⟨k, rfl⟩

theorem zero_plain : Plain .zero := .inr ⟨0, by decide +kernel⟩

/-- The sample state has the invariant. -/
theorem sample_inv : sample.Inv where
  params := by decide
  memory := sample_wf
  cells := by
    intro p hp
    have h : p.1 < sample.memLen ∧ Plain p.2 := by
      simp only [sample, List.mem_cons, List.not_mem_nil, or_false] at hp
      rcases hp with rfl | rfl | rfl | rfl
      all_goals refine ⟨by decide, ?_⟩; dsimp only
      · exact num_plain 7
      · exact .inl rfl
      · exact num_plain 2
      · exact num_plain 6
    exact ⟨h.1, h.2.proper⟩
  lanes := by
    intro r
    have h : Plain (sample.vec r).l0 ∧ Plain (sample.vec r).l1 ∧ Plain (sample.vec r).l2 ∧
        Plain (sample.vec r).l3 := by
      cases r <;> simp only [sample, State.vec, VecFile.get, Lanes.zero]
      · exact ⟨num_plain 1, num_plain 2, num_plain 3, num_plain 4⟩
      · exact ⟨num_plain 4, num_plain 3, num_plain 2, num_plain 1⟩
      · exact ⟨num_plain 1, zero_plain, num_plain 1, num_plain 1⟩
      · exact ⟨zero_plain, zero_plain, zero_plain, zero_plain⟩
    exact ⟨h.1.proper, h.2.1.proper, h.2.2.1.proper, h.2.2.2.proper⟩
  matSize := by decide
  progLen := by decide
  cursor := by decide
  labels := by decide
  errors := by decide

theorem witness_DecodeOfEncodeIsTheInstruction :
    Instr.WellFormed
      (.mov ⟨15, .mem2 (.reg 15) (.imm 0xFFFFFFFFFFFFFFFF .bin), .label 0xFFFF, .vreg 15⟩) = true ∧
    Instr.WellFormed .halt = true := by decide

/-- Both sides of the equivalence: an unlisted opcode, a listed one, and a word that is no INSN. -/
theorem witness_UnknownOpcodesAreTheUnlistedOnes :
    (StmtWord.kind ⟨0x3FF, 0, 0, 0, 0⟩ = 3#2 ∧ StmtWord.opc ⟨0x3FF, 0, 0, 0, 0⟩ = 0xFF#8) ∧
    (StmtWord.kind ⟨7, 0, 0, 0, 0⟩ = 3#2 ∧ StmtWord.opc ⟨7, 0, 0, 0, 0⟩ = 1#8) ∧
    StmtWord.kind ⟨2, 0, 0, 0, 0⟩ ≠ 3#2 := by decide

/-- Operands that resolve, at the ends of the ranges, and operands that do not. -/
theorem witness_OperandResolutionFollowsItsRules :
    regOfNumber 7 = some .sp ∧ vregOfNumber 3 = some .v3 ∧ sample.partVal (.reg 7) = .ok 998 ∧
    sample.partVal (.imm 1 .bin) = .ok 1 ∧ Operand.isMem (.reg 7) = false ∧
    8 ≤ (8 : BitVec 4).toNat ∧ sample.partVal (.reg 8) = .error .invalidRegister ∧
    (sample.ea (.mem2 (.reg 7) (.imm 1 .bin)) = .ok 999 ∧ 999 < sample.memLen) ∧
    (sample.ea (.mem2 (.reg 7) (.imm 2 .bin)) = .ok 1000 ∧ sample.memLen ≤ 1000) ∧
    (Operand.isMem (.mem1 (.reg 8)) = true ∧
      sample.ea (.mem1 (.reg 8)) = .error .invalidRegister) ∧
    labelTarget sample.labels (2 : BitVec 16).toNat = some 3 ∧
    regOf (.reg 8) = .error .invalidRegister ∧
    sample.valRl10 (.imm 16 .hex) = .error .invalidOperand ∧
    sample.valRl (.reg 8) = .error .invalidRegister ∧
    vregOf (.vreg 4) = .error .invalidOperand ∧
    sample.targetOf (.label 1) = .error .unknownLabel := by decide +kernel

theorem witness_LiteralsAndAddressesAreExactIntegers :
    8 ≤ (8 : BitVec 4).toNat ∧ regOfNumber 0 = some .r0 ∧ regOfNumber 7 = some .sp ∧
    (BitVec.ofNat 64 (2 ^ 53)).toNat ≤ 2 ^ 53 ∧ (0 : Word).toNat ≤ 2 ^ 53 := by decide

theorem witness_StepRunsTheDecodedInstruction :
    sample.halted = false ∧ sample.prog[sample.pc]? = some ⟨0x1004807, 0, 0, 1, 0⟩ ∧
    decode ⟨0x1004807, 0, 0, 1, 0⟩ = .ok sampleAdd ∧ sampleAdd.WellFormed = true ∧
    sampleAdd ≠ .blank ∧ sample.pausesHere (fun _ => false) = false ∧
    sample.pausesHere sample.hook = false := by decide

theorem witness_StatementKindsBlankLabelAndEnd :
    (sample.setPc 2).halted = false ∧ (sample.setPc 2).pausesHere (fun _ => false) = false ∧
    (sample.setPc 2).prog[(sample.setPc 2).pc]? = some ⟨0, 0, 0, 0, 0⟩ ∧
    decode ⟨0, 0, 0, 0, 0⟩ = .ok .blank := by decide

theorem witness_BreakpointPausesOnce :
    sample.halted = false ∧ sample.bpSkip = false ∧ (fun i => i == 1) sample.pc = true := by decide

/-- Both stopped states, an empty text, a text with a duplicate, and one that loads. -/
theorem witness_StoppedEngineStaysAsItIs :
    (sample.setRunState .stoppedError).halted = true ∧
    (sample.setRunState .stoppedSuccess).halted = true ∧ " \n".toList.all isSpace = true ∧
    duplicateLine [] (parseText "a:\na:".toList) 1 = some 2 ∧
    ∃ t, (sample.setRunState .stoppedError).loadProgram "RET".toList = .next t :=
  ⟨by decide, by decide, by decide +kernel, by decide +kernel, _, rfl⟩

/-- The first clause at the end of the store and before a last blank statement, the second at an unlisted
opcode. -/
theorem witness_StepAtTheEndAndAtAnUnknownInstruction :
    ((sample.setPc 6).halted = false ∧ (sample.setPc 6).pausesHere (fun _ => false) = false ∧
      ∀ k w, (sample.setPc 6).pc ≤ k → (sample.setPc 6).prog[k]? = some w →
        decode w = .ok .blank) ∧
    (∀ k w, 0 ≤ k → [(⟨0, 0, 0, 0, 0⟩ : StmtWord)][k]? = some w → decode w = .ok .blank) ∧
    (sample.setPc 4).prog[(sample.setPc 4).pc]? = some ⟨0x3FF, 0, 0, 0, 0⟩ ∧
    decode ⟨0x3FF, 0, 0, 0, 0⟩ = .error (.unknownInstruction 0xFF) := by
  refine ⟨⟨by decide, by decide, ?_⟩, ?_, by decide, by decide⟩
  · intro k w hk hw
    have h : k < 6 := (List.getElem?_eq_some_iff.1 hw).1
    exact absurd hk (Nat.not_le.2 h)
  · intro k w _ hw
    have h : k = 0 := Nat.lt_one_iff.1 (List.getElem?_eq_some_iff.1 hw).1
    subst h
    cases hw
    decide

theorem witness_StepMakesOnlyTheTransitionsOfTheTable :
    (sample.halted = false ∧ sample.pausesHere (fun _ => false) = false ∧
      ∃ t, stepWith (fun _ => false) sample = .next t) ∧
    (sample.pausesHere (fun _ => true) = true ∧ ∃ t, stepWith (fun _ => true) sample = .next t) ∧
    ((sample.setRunState .stoppedError).halted = true ∧
      ∃ t, stepWith (fun _ => true) (sample.setRunState .stoppedError) = .next t) :=
  ⟨⟨by decide, by decide, _, rfl⟩, ⟨by decide, _, rfl⟩, ⟨by decide, _, rfl⟩⟩

theorem witness_RunModeTicksAndStopRequests :
    sample.runState = .loaded ∧ (sample.setRunState .paused).runState = .paused ∧
    (sample.setRunState .running).runState = .running ∧
    (sample.setRunState .running).stopReq = false ∧ sample.runState ≠ .running ∧
    ∃ t, stepWith (fun _ => false) sample = .next t :=
  ⟨rfl, rfl, rfl, rfl, by decide, _, rfl⟩

/-- An effect, the entry into an error, and END. -/
theorem witness_ErrorsArePrecise :
    (∃ t, exec sampleAdd sample = .next t) ∧
    (∃ t, exec (.div ⟨2, .reg 0, .reg 1, .none⟩) sample = .next t) ∧
    ∃ t, exec .halt sample = .next t := ⟨⟨_, rfl⟩, ⟨_, rfl⟩, _, rfl⟩

theorem witness_WrongOperandCountRaisesArityMismatch :
    Instr.operands? (.ret ⟨1, .none, .none, .none⟩) = some ⟨1, .none, .none, .none⟩ ∧
    (1 : BitVec 4).toNat ≠ Instr.arity (.ret ⟨1, .none, .none, .none⟩) ∧
    Instr.operands? (.add ⟨15, .reg 0, .reg 1, .none⟩) = some ⟨15, .reg 0, .reg 1, .none⟩ ∧
    (15 : BitVec 4).toNat ≠ Instr.arity (.add ⟨15, .reg 0, .reg 1, .none⟩) := by decide

theorem witness_EachErrorHasItsRaisers :
    sample.errCode = none ∧
    exec (.jmp ⟨1, .label 1, .none, .none⟩) sample = .next (sample.enterError .unknownLabel) ∧
    (sample.enterError .unknownLabel).errCode = some .unknownLabel := ⟨rfl, rfl, rfl⟩

theorem witness_InvariantHoldsAtReset :
    Params.Legal ⟨4, 0, 0⟩ ∧ Params.Legal ⟨4294967295, 4294967295, 65536⟩ := by decide

theorem witness_InvariantKeptByEveryStep :
    sample.Inv ∧ (∃ t, step sample = .next t) ∧ ∃ t, stepWith (fun _ => true) sample = .next t :=
  ⟨sample_inv, ⟨_, rfl⟩, _, rfl⟩

theorem witness_InvariantKeptByTheHostsEntryPoints :
    sample.Inv ∧ (∃ t, sample.tick (fun _ => true) = .next t) ∧
    ∃ t, sample.loadProgram "a:".toList = .next t :=
  ⟨sample_inv, ⟨_, rfl⟩, _, rfl⟩

/-- A tie: 2^53 + 1 lies midway between two numbers with a 53-bit significand. -/
theorem witness_FlRoundsToNearestTiesToEven :
    0 < 1 ∧ HasSignificand (2 ^ 53 + 2) ∧
    (((2 ^ 53 + 1 : Nat) : Int) - (roundQuotient (2 ^ 53 + 1) 1 * 1 : Nat)).natAbs =
      (((2 ^ 53 + 1 : Nat) : Int) - ((2 ^ 53 + 2) * 1 : Nat)).natAbs := by decide +kernel

theorem witness_IntegerResultsAreExactUpTo2Pow53 :
    (2 ^ 53 : Int).natAbs ≤ 2 ^ 53 ∧ (-(2 ^ 53) : Int).natAbs ≤ 2 ^ 53 ∧ (0 : Int).natAbs ≤ 2 ^ 53 := by
  decide

theorem witness_LaneArithmeticFollowsTheTable : (1 : Nat) ≠ 0 ∧ Binary64.unit ≠ 0 := by
  decide +kernel

/-- A register source, SP as the destination, and the greatest literal, which rounds to 2^64. -/
theorem witness_AddSubMulStoreTheMaskedResult :
    regOfNumber 7 = some .sp ∧ sample.operandNat (.reg 7) = some 998 ∧
    sample.operandNat (.imm 0xFFFFFFFFFFFFFFFF .dec) = some 18446744073709551616 ∧
    sample.operandNat (.imm 0 .dec) = some 0 := by decide +kernel

theorem witness_DivStoresTheFlooredQuotient :
    regOfNumber 0 = some .r0 ∧ sample.operandNat (.imm 1 .dec) = some 1 ∧ (1 : Nat) ≠ 0 := by
  decide +kernel

theorem witness_ArithmeticErrorsLeaveEverything :
    (Instr.cmp : Operands → Instr) ∈ binaryGroup ∧ Operand.isReg (.reg 8) = false ∧
    Operand.isReg (.reg 7) = true ∧ Operand.isRl10 (.reg 8) = false ∧
    Operand.isRl10 (.imm 16 .hex) = false ∧ (∀ n, Operand.imm 16 .hex ≠ .reg n) ∧
    sample.operandNat (.reg 1) = some 0 :=
  ⟨by simp [binaryGroup], by decide, by decide, by decide, by decide, by decide, by decide⟩

theorem witness_BitwiseActsOnTheUnboundedExpansions :
    regOfNumber 2 = some .r2 ∧ sample.operandNat (.imm 0xFFFFFFFFFFFFFFFF .dec) =
      some 18446744073709551616 := by decide +kernel

theorem witness_IncDecNotInExactIntegers :
    regOfNumber 1 = some .r1 ∧ sample.reg .r1 = 0 ∧ regOfNumber 2 = some .r2 ∧
    sample.reg .r2 = 2 ^ 32 - 1 := by decide

theorem witness_CmpComparesUnsignedAndWritesTwoFlags :
    regOfNumber 2 = some .r2 ∧ sample.operandNat (.reg 2) = some 4294967295 := by decide

/-- A literal that brings the sum to 2^53, another register, and the destination itself. -/
theorem witness_AddThenSubRestoresTheDestination :
    regOfNumber 2 = some .r2 ∧
    sample.operandNat (.imm 0x1FFFFF00000001 .dec) = some 0x1FFFFF00000001 ∧
    Operand.imm 0x1FFFFF00000001 .dec ≠ .reg 2 ∧ sample.reg .r2 + 0x1FFFFF00000001 ≤ 2 ^ 53 ∧
    sample.operandNat (.reg 7) = some 998 ∧ Operand.reg 7 ≠ .reg 2 ∧
    sample.operandNat (.reg 2) = some 4294967295 ∧
    sample.reg .r2 < 2 ^ sample.W.bits := by decide +kernel

theorem witness_MovToRegisterMasksTheSource :
    regOfNumber 7 = some .sp ∧ sample.valAny (.mem1 (.imm 999 .dec)) = .ok (num 6) ∧
    sample.valAny (.mem1 (.imm 3 .dec)) = .ok .nan ∧
    sample.valAny (.reg 2) = .ok (num 4294967295) := by decide +kernel

theorem witness_MovToMemoryStoresTheSourceWhole :
    Memory.wf sample.mem ∧ sample.ea (.mem1 (.imm 999 .dec)) = .ok 999 ∧ 999 < sample.memLen ∧
    sample.valAny (.mem2 (.reg 5) (.reg 1)) = .ok (num 7) := by decide +kernel

theorem witness_LoadMasksTheCell :
    regOfNumber 0 = some .r0 ∧ sample.ea (.mem2 (.reg 7) (.imm 1 .hex)) = .ok 999 ∧
    999 < sample.memLen ∧ sample.cell 999 ≠ .nan := by decide +kernel

theorem witness_StoreWritesTheValueWhole :
    Memory.wf sample.mem ∧ sample.valRl (.imm 255 .hex) = .ok (num 255) ∧
    sample.ea (.mem1 (.reg 1)) = .ok 0 ∧ 0 < sample.memLen := by decide +kernel

/-- Each clause at its boundary: the first address past the end, the first too high for four cells, a NaN
cell, and four cells the last of which is NaN. -/
theorem witness_MemoryErrorsLeaveEverything :
    regOfNumber 0 = some .r0 ∧ vregOfNumber 3 = some .v3 ∧ sample.valRl (.reg 0) = .ok (num 5) ∧
    (sample.ea (.mem1 (.imm 1000 .dec)) = .ok 1000 ∧ sample.memLen ≤ 1000) ∧
    (sample.ea (.mem1 (.imm 999 .dec)) = .ok 999 ∧ 999 < sample.memLen) ∧
    (sample.ea (.mem1 (.imm 997 .dec)) = .ok 997 ∧ sample.memLen ≤ 997 + 3) ∧
    (sample.ea (.mem1 (.imm 3 .dec)) = .ok 3 ∧ 3 < sample.memLen ∧ sample.cell 3 = .nan) ∧
    (sample.ea (.mem1 (.imm 0 .dec)) = .ok 0 ∧ 0 + 3 < sample.memLen ∧ 3 < 4 ∧
      sample.cell (0 + 3) = .nan) := by decide +kernel

/-- Each clause: the operand that fails to resolve after those before it have resolved. -/
theorem witness_UnresolvedOperandsEnterTheirError :
    (Operand.isMem (.mem1 (.reg 8)) = true ∧
      sample.ea (.mem1 (.reg 8)) = .error .invalidRegister) ∧
    (Operand.isMem (.imm 5 .dec) = false ∧ regOf (.imm 5 .dec) = .error .invalidRegister) ∧
    (sample.ea (.mem1 (.imm 999 .dec)) = .ok 999 ∧ 999 < sample.memLen ∧ regOf (.reg 7) = .ok .sp ∧
      sample.valAny .bad = .error .invalidOperand) ∧
    (regOf (.reg 0) = .ok .r0 ∧ sample.ea .bad = .error .invalidOperand) ∧
    (sample.valRl (.mem1 (.reg 0)) = .error .invalidOperand) ∧
    (sample.valRl (.reg 0) = .ok (num 5) ∧ sample.ea (.reg 0) = .error .invalidOperand) ∧
    (vregOf (.reg 1) = .error .invalidOperand ∧ vregOf (.vreg 3) = .ok .v3 ∧
      vregOf .none = .error .invalidOperand) := by decide +kernel

theorem witness_StoreThenLoadReturnsTheValue :
    Memory.wf sample.mem ∧ regOfNumber 2 = some .r2 ∧ regOfNumber 7 = some .sp ∧
    sample.ea (.mem1 (.reg 7)) = .ok 998 ∧ 998 < sample.memLen ∧
    sample.reg .r2 ≤ sample.W.maxValue := by decide +kernel

/-- SP at both ends of its range. -/
theorem witness_PushWritesBelowTheStackPointer :
    Memory.wf (sampleSP 1).mem ∧ (sampleSP 1).valRl (.reg 7) = .ok (num 1) ∧ 0 < (sampleSP 1).sp ∧
    (sampleSP 1).sp ≤ (sampleSP 1).memLen ∧ 0 < (sampleSP 1000).sp ∧
    (sampleSP 1000).valRl (.imm 5 .bin) = .ok (num 5) ∧
    (sampleSP 1000).sp ≤ (sampleSP 1000).memLen := by decide +kernel

theorem witness_PopReadsTheTopCell :
    (sampleSP 999).params.Legal ∧ regOfNumber 7 = some .sp ∧
    (sampleSP 999).sp < (sampleSP 999).memLen ∧ (sampleSP 0).sp < (sampleSP 0).memLen := by decide

theorem witness_DupCopiesTheTopCell :
    Memory.wf (sampleSP 1).mem ∧ 0 < (sampleSP 1).sp ∧ (sampleSP 1).sp < (sampleSP 1).memLen ∧
    0 < (sampleSP 999).sp ∧ (sampleSP 999).sp < (sampleSP 999).memLen := by decide +kernel

theorem witness_SwapAndRotPermuteTheTopCells :
    Memory.wf (sampleSP 998).mem ∧ (sampleSP 998).sp + 2 ≤ (sampleSP 998).memLen ∧
    (sampleSP 997).sp + 3 ≤ (sampleSP 997).memLen ∧ (sampleSP 0).sp + 3 ≤ (sampleSP 0).memLen := by
  decide +kernel

/-- Each clause at its boundary. -/
theorem witness_StackBoundsAndTheirErrors :
    regOfNumber 0 = some .r0 ∧ (sampleSP 0).valRl (.reg 0) = .ok (num 5) ∧ (sampleSP 0).sp = 0 ∧
    0 < (sampleSP 0).memLen ∧ (sampleSP 1001).memLen < (sampleSP 1001).sp ∧
    (sampleSP 1001).valRl (.reg 0) = .ok (num 5) ∧ (sampleSP 1000).memLen ≤ (sampleSP 1000).sp ∧
    (sampleSP 999).memLen < (sampleSP 999).sp + 2 ∧
    (sampleSP 998).memLen < (sampleSP 998).sp + 3 := by decide +kernel

theorem witness_PushThenPopRestoresTheStack :
    (sampleSP 1000).params.Legal ∧ Memory.wf (sampleSP 1000).mem ∧ regOfNumber 0 = some .r0 ∧
    (sampleSP 1000).valRl (.imm 0xFFFFFFFF .hex) = .ok (num 4294967295) ∧ 0 < (sampleSP 1000).sp ∧
    (sampleSP 1000).sp ≤ (sampleSP 1000).memLen ∧ 4294967295 ≤ (sampleSP 1000).W.maxValue := by
  decide +kernel

/-- Taken to a label, taken to an undefined one, and not taken. -/
theorem witness_JumpsFollowTheConditionTable :
    (Instr.je, fun z _ => z) ∈ jumpTable ∧ (Instr.jne, fun z _ => !z) ∈ jumpTable ∧
    sample.FLAGS = true ∧ labelTarget sample.labels (2 : BitVec 16).toNat = some 3 ∧
    (∀ l, Operand.label 1 = .label l → labelTarget sample.labels l.toNat = none) := by
  refine ⟨by simp [jumpTable], by simp [jumpTable], rfl, by decide, ?_⟩
  intro l hl
  cases hl
  decide

theorem witness_CallPushesTheReturnIndex :
    Memory.wf (sampleSP 1).mem ∧ labelTarget (sampleSP 1).labels (2 : BitVec 16).toNat = some 3 ∧
    0 < (sampleSP 1).sp ∧ (sampleSP 1).sp ≤ (sampleSP 1).memLen ∧
    (sampleSP 1000).sp ≤ (sampleSP 1000).memLen := by decide +kernel

theorem witness_RetJumpsToThePoppedIndex :
    (sampleSP 999).params.Legal ∧ (sampleSP 999).sp < (sampleSP 999).memLen ∧
    (sampleSP 999).cell (sampleSP 999).sp = .fin false (Binary64.unit * 6) ∧
    6 ≤ (sampleSP 999).progLen ∧
    (sampleSP 0).cell (sampleSP 0).sp = .fin false (Binary64.unit * 0) ∧
    0 ≤ (sampleSP 0).progLen := by decide +kernel

theorem witness_CallAndRetErrorsLeaveEverything :
    (sampleSP 0).sp = 0 ∧ 0 < sample.sp ∧
    (∀ l, Operand.label 1 = .label l → labelTarget sample.labels l.toNat = none) ∧
    (sampleSP 1001).memLen < (sampleSP 1001).sp ∧
    labelTarget (sampleSP 1001).labels (2 : BitVec 16).toNat ≠ none ∧
    (sampleSP 1000).memLen ≤ (sampleSP 1000).sp ∧ (sampleSP 3).sp < (sampleSP 3).memLen ∧
    (∀ neg n, n ≤ (sampleSP 3).progLen → (neg = false ∨ n = 0) →
      (sampleSP 3).cell (sampleSP 3).sp ≠ .fin neg (Binary64.unit * n)) := by
  refine ⟨by decide, by decide, ?_, by decide, by decide, by decide, by decide, ?_⟩
  · intro l hl
    cases hl
    decide
  · intro neg n _ _
    rw [show (sampleSP 3).cell (sampleSP 3).sp = .nan by decide +kernel]
    exact Binary64.noConfusion

/-- The later state may be the state right after the CALL. -/
theorem witness_RetReturnsAfterItsCall :
    sample.Inv ∧ sample.pc < sample.progLen ∧ sample.runState ≠ .stoppedError ∧
    ∃ t, exec (.call ⟨1, .label 2, .none, .none⟩) sample = .next t ∧ t.runState = sample.runState ∧
      ∃ m : State, m.params = t.params ∧ m.prog = t.prog ∧ m.sp = t.sp ∧
        m.cell t.sp = t.cell t.sp :=
  ⟨sample_inv, by decide, by decide, _, rfl, rfl, _, rfl, rfl, rfl, rfl⟩

theorem witness_VaddAndVmulActLaneByLane :
    vregOfNumber 0 = some .v0 ∧ vregOfNumber 1 = some .v1 ∧ vregOfNumber 3 = some .v3 := by decide

/-- Both clauses: v1 has no zero lane, lane 1 of v2 is a zero. -/
theorem witness_VdivDividesAllLanesOrNone :
    vregOfNumber 0 = some .v0 ∧ vregOfNumber 1 = some .v1 ∧ vregOfNumber 2 = some .v2 ∧
    (∀ l ∈ [(sample.vec .v1).l0, (sample.vec .v1).l1, (sample.vec .v1).l2, (sample.vec .v1).l3],
      ∀ neg, l ≠ .fin neg 0) ∧
    (∃ l ∈ [(sample.vec .v2).l0, (sample.vec .v2).l1, (sample.vec .v2).l2, (sample.vec .v2).l3],
      ∃ neg, l = .fin neg 0) := by
  refine ⟨by decide, by decide, by decide, by decide +kernel, _, ?_, false, rfl⟩
  simp [sample, State.vec, VecFile.get]

theorem witness_VloadCopiesFourCells :
    vregOfNumber 3 = some .v3 ∧ sample.ea (.mem1 (.imm 996 .dec)) = .ok 996 ∧
    996 + 3 < sample.memLen ∧ (∀ k, k < 4 → sample.cell (996 + k) ≠ .nan) := by decide +kernel

theorem witness_VstoreCopiesFourLanes :
    Memory.wf sample.mem ∧ vregOfNumber 0 = some .v0 ∧
    sample.ea (.mem2 (.imm 996 .dec) (.reg 1)) = .ok 996 ∧ 996 + 3 < sample.memLen := by
  decide +kernel

/-- Both ends of the range, and values on both sides of it. -/
theorem witness_SetmatsizeTakesOneToFour :
    sample.valRl (.imm 1 .dec) = .ok (num 1) ∧ sample.valRl (.imm 4 .hex) = .ok (num 4) ∧
    sample.valRl (.reg 1) = .ok (num 0) ∧ sample.valRl (.reg 0) = .ok (num 5) ∧
    (∀ k, 1 ≤ k → k ≤ 4 → num 0 ≠ num k ∧ num 5 ≠ num k) := by
  refine ⟨by decide +kernel, by decide +kernel, by decide +kernel, by decide +kernel, ?_⟩
  intro k h1 h4
  have h : k = 1 ∨ k = 2 ∨ k = 3 ∨ k = 4 := by omega
  rcases h with rfl | rfl | rfl | rfl <;> decide +kernel

theorem witness_NothingReadsMatsizeOrOverflow :
    ∃ t, stepWith (fun _ => false) sample = .next t := ⟨_, rfl⟩

theorem witness_SetBitWidthChangesTheWidthAlone :
    (16 = 8 ∨ 16 = 16 ∨ 16 = 32) ∧ (12 : Nat) ≠ 8 ∧ (12 : Nat) ≠ 16 ∧ (12 : Nat) ≠ 32 := by decide

theorem witness_ResetLeavesTheStatedValues :
    sample.params.Legal ∧ (fun i => i == 1) 0 = false := by decide

/-- A line of each kind: a label, a jump to it, a mnemonic in lower case, END, blank, and no mnemonic. -/
def sampleText : List Char := "a:\nJMP a\nret ; back\nEND\n\nFOO r0".toList

/-- The statement texts of the lines of `sampleText` meet the clauses of the last part. -/
theorem witness_LoadInstallsOneStatementPerLine_lines :
    sample.params.Legal ∧
    (textLines sampleText).map statementOf =
      ["a:".toList, "JMP a".toList, "ret".toList, "END".toList, [], "FOO r0".toList] ∧
    (isEndLine "a:".toList = false ∧ definedLabel "a:".toList = some "a".toList) ∧
    (isEndLine "JMP a".toList = false ∧ definedLabel "JMP a".toList = none ∧
      upper (opcodeText "JMP a".toList) = "JMP".toList ∧ "JMP" ∈ labelMnemonics ∧
      (operandTokens "JMP a".toList)[0]? = some "a".toList) ∧
    upper (opcodeText "ret".toList) = "RET".toList ∧ isEndLine "END".toList = true ∧
    (definedLabel "FOO r0".toList = none ∧ isEndLine "FOO r0".toList = false ∧
      upper (opcodeText "FOO r0".toList) ∉ mnemonicTable.map (fun p => p.1.toList)) := by
  decide +kernel

/-- The three clauses: white space only, a duplicate label, and a text that is installed. -/
theorem witness_LoadInstallsOneStatementPerLine :
    " \n\t".toList.all isSpace = true ∧
    duplicateLine [] (parseText "a:\na:".toList) 1 = some 2 ∧
    sampleText.all isSpace = false ∧
    duplicateLine [] (parseText sampleText) 1 = none ∧
    (textLines sampleText).length ≤ sample.params.progMax ∧
    (labelNames (parseText sampleText)).length ≤ sample.params.nLabels := by decide +kernel

theorem witness_EachKindOfStateHasItsWriters :
    (∃ t, exec (.mov ⟨2, .reg 0, .reg 1, .none⟩) sample = .next t) ∧
    writesFlags (.mov ⟨2, .reg 0, .reg 1, .none⟩) = false ∧
    (∃ t, exec (.cmp ⟨2, .reg 0, .reg 1, .none⟩) sample = .next t) ∧
    writesCells (.cmp ⟨2, .reg 0, .reg 1, .none⟩) = false ∧
    writesVectors (.cmp ⟨2, .reg 0, .reg 1, .none⟩) = false ∧
    writesRegs (.cmp ⟨2, .reg 0, .reg 1, .none⟩) = false :=
  ⟨⟨_, rfl⟩, rfl, ⟨_, rfl⟩, rfl, rfl, rfl⟩

theorem witness_NoStepChangesTheProgramOrTheWidth :
    ∃ t, stepWith (fun _ => false) sample = .next t := ⟨_, rfl⟩

/-- A masked write, SP moved up, and SP moved down. -/
theorem witness_ChangedRegistersAreMasked :
    sample.Inv ∧
    (∃ t, exec (.inc ⟨1, .reg 0, .none, .none⟩) sample = .next t ∧ t.reg .r0 ≠ sample.reg .r0) ∧
    (∃ t, exec (.pop ⟨1, .reg 0, .none, .none⟩) sample = .next t ∧ t.reg .sp ≠ sample.reg .sp) ∧
    ∃ t, exec (.push ⟨1, .reg 0, .none, .none⟩) sample = .next t ∧ t.reg .sp ≠ sample.reg .sp :=
  ⟨sample_inv, ⟨_, rfl, by decide +kernel⟩, ⟨_, rfl, by decide +kernel⟩, _, rfl, by decide +kernel⟩

end Sys2Proof.Tests
end

section
/-! The invariant of the machine: what a step can do, said once (`stepWith_answers`); every named
operation over the state keeps `State.Inv`; so does every effect an instruction can have, and so every
step. -/

namespace Sys2Proof

/-! ### Proper values -/

namespace Binary64

/-- The shapes of a value that is not negative (45_simd.md R282). -/
theorem notNegative_cases {v : Binary64} (h : v.NotNegative) :
    v = .nan ∨ v = .inf false ∨ ∃ m, v = .fin false m := by
  cases v with
  | nan => exact .inl rfl
  | inf neg => exact .inr (.inl (congrArg inf h))
  | fin neg m => exact .inr (.inr ⟨m, congrArg (fin · m) h⟩)

theorem nan_proper : Binary64.nan.Proper := ⟨trivial, trivial⟩

theorem inf_false_proper : (Binary64.inf false).Proper := ⟨trivial, rfl⟩

theorem limit_pos : 0 < limit := Nat.mul_pos unit_pos (Nat.pow_pos (Nat.two_pow_pos 256))

theorem fl_zero (neg : Bool) : fl neg 0 1 = .fin neg 0 := fl_exact neg (Nat.zero_mod _) limit_pos

theorem zero_proper : Binary64.zero.Proper := by
  have h := fl_false_proper 0 1
  rwa [fl_zero] at h

/-- The sum of two finite values without a sign (45_simd.md R271). -/
theorem add_fin_false (m n : Nat) : add (.fin false m) (.fin false n) = fl false (m + n) 1 := by
  have hunits : (fin false m).units + (fin false n).units = ((m + n : Nat) : Int) := rfl
  simp only [add, hunits, Int.natAbs_natCast]
  split
  · next h =>
    rw [Int.natCast_eq_zero.1 h, fl_zero]
    rfl
  · rw [decide_eq_false (Int.not_lt.2 (Int.natCast_nonneg _))]

theorem add_proper {a b : Binary64} (ha : a.NotNegative) (hb : b.NotNegative) : (add a b).Proper := by
  rcases notNegative_cases ha with rfl | rfl | ⟨m, rfl⟩
  · exact nan_proper
  · rcases notNegative_cases hb with rfl | rfl | ⟨n, rfl⟩
    · exact nan_proper
    · exact inf_false_proper
    · exact inf_false_proper
  · rcases notNegative_cases hb with rfl | rfl | ⟨n, rfl⟩
    · exact nan_proper
    · exact inf_false_proper
    · exact add_fin_false m n ▸ fl_false_proper _ _

theorem mul_proper {a b : Binary64} (ha : a.NotNegative) (hb : b.NotNegative) : (mul a b).Proper := by
  rcases notNegative_cases ha with rfl | rfl | ⟨m, rfl⟩
  · exact nan_proper
  · rcases notNegative_cases hb with rfl | rfl | ⟨n, rfl⟩
    · exact nan_proper
    · exact inf_false_proper
    · simp only [mul]
      split
      · exact nan_proper
      · exact inf_false_proper
  · rcases notNegative_cases hb with rfl | rfl | ⟨n, rfl⟩
    · exact nan_proper
    · simp only [mul]
      split
      · exact nan_proper
      · exact inf_false_proper
    · exact fl_false_proper _ _

theorem div_proper {a b : Binary64} (ha : a.NotNegative) (hb : b.NotNegative) : (div a b).Proper := by
  rcases notNegative_cases ha with rfl | rfl | ⟨m, rfl⟩
  · exact nan_proper
  · rcases notNegative_cases hb with rfl | rfl | ⟨n, rfl⟩
    · exact nan_proper
    · exact nan_proper
    · exact inf_false_proper
  · rcases notNegative_cases hb with rfl | rfl | ⟨n, rfl⟩
    · exact nan_proper
    · exact zero_proper
    · simp only [div]
      split
      · split
        · exact nan_proper
        · exact inf_false_proper
      · exact fl_false_proper _ _

end Binary64

namespace Machine

theorem LaneOp.proper {f : Binary64 → Binary64 → Binary64} {l : Lanes} (hf : LaneOp f l)
    {a b : Binary64} (ha : a.Proper) (hb : b.Proper) : (f a b).Proper := by
  rcases hf with rfl | rfl | ⟨rfl, -⟩
  · exact Binary64.add_proper ha.2 hb.2
  · exact Binary64.mul_proper ha.2 hb.2
  · exact Binary64.div_proper ha.2 hb.2

theorem LaneOp.map2_proper {f : Binary64 → Binary64 → Binary64} {l a b : Lanes} (hf : LaneOp f l)
    (ha : a.Proper) (hb : b.Proper) : (Lanes.map2 f a b).Proper := by
  obtain ⟨ha0, ha1, ha2, ha3⟩ := ha
  obtain ⟨hb0, hb1, hb2, hb3⟩ := hb
  exact ⟨hf.proper ha0 hb0, hf.proper ha1 hb1, hf.proper ha2 hb2, hf.proper ha3 hb3⟩

/-- What an address reads as: a listed value, or +0. -/
theorem Memory.read_mem_or_zero (m : Memory) (a : Nat) :
    (a, Memory.read m a) ∈ m ∨ Memory.read m a = .zero := by
  induction m with
  | nil => exact .inr rfl
  | cons p m ih =>
    obtain ⟨k, u⟩ := p
    simp only [Memory.read]
    split
    · next hk => exact .inl (hk ▸ List.mem_cons_self)
    · exact ih.imp_left (List.mem_cons_of_mem _)

/-! ### What a step can do -/

/-- The answers of `step()` under a hook, one for each way through the algorithm of 40_sequencer.md
R142. -/
inductive StepAnswers (hook : Nat → Bool) (s : State) : State → Prop where
  | halted (hs : s.halted = true) : StepAnswers hook s s
  | pause (hs : s.halted = false) (hp : s.pausesHere hook = true) :
      StepAnswers hook s s.pauseAtBreakpoint
  | atEnd (hs : s.halted = false) (hp : s.pausesHere hook = false)
      (hf : s.beginStep.fetch = none) : StepAnswers hook s s.beginStep.complete
  | unknown (hs : s.halted = false) (hp : s.pausesHere hook = false) (r : Reject)
      (hf : s.beginStep.fetch = some (.error r)) :
      StepAnswers hook s (s.beginStep.enterError .unknownInstruction)
  | ran (hs : s.halted = false) (hp : s.pausesHere hook = false) (i : Instr) (u : State)
      (hf : s.beginStep.fetch = some (.ok i)) (hu : exec i s.beginStep = .next u) :
      StepAnswers hook s u.settle

theorem settleResult_eq_next {r : Result} {t : State} :
    settleResult r = .next t ↔ ∃ u, r = .next u ∧ u.settle = t := by
  cases r <;> simp [settleResult]

theorem stepWith_answers {hook : Nat → Bool} {s t : State} (h : stepWith hook s = .next t) :
    StepAnswers hook s t := by
  simp only [stepWith, runStep] at h
  split at h
  · next hs =>
    cases h
    exact .halted hs
  · next hs =>
    have hs := Bool.eq_false_of_not_eq_true hs
    split at h
    · next hp =>
      cases h
      exact .pause hs hp
    · next hp =>
      have hp := Bool.eq_false_of_not_eq_true hp
      split at h
      · next hf =>
        cases h
        exact .atEnd hs hp hf
      · next hf =>
        cases h
        exact .unknown hs hp _ hf
      · next i hf =>
        obtain ⟨u, hu, rfl⟩ := settleResult_eq_next.1 h
        exact .ran hs hp i u hf hu

theorem State.safe_of_not_halted {s : State} (h : s.halted = false) : s.Safe := by
  intro hr
  simp [State.halted, hr] at h

theorem State.fetch_eq_some {s : State} {d : Except Reject Instr} (h : s.fetch = some d) :
    ∃ w, s.prog[s.pc]? = some w ∧ decode w = d := by
  unfold State.fetch at h
  split at h
  · next w hw => exact ⟨w, hw, Option.some.inj h⟩
  · cases h

/-- A statement is fetched inside the program only. -/
theorem State.pc_lt_of_fetch {s : State} {d : Except Reject Instr} (h : s.fetch = some d) :
    s.pc < s.progLen := by
  obtain ⟨w, hw, -⟩ := State.fetch_eq_some h
  exact (List.getElem?_eq_some_iff.1 hw).1

theorem RunState.settle_eq_stoppedError {r : RunState} :
    r.settle = .stoppedError ↔ r = .stoppedError := by
  cases r <;> decide

theorem blankRun_le (l : List StmtWord) : blankRun l ≤ l.length := by
  induction l with
  | nil => exact le_refl _
  | cons w l ih =>
    simp only [blankRun, List.length_cons]
    split <;> omega

/-! ### The operations keep the invariant -/

namespace State.Inv

variable {s : State}

theorem cell_proper (h : s.Inv) (a : Nat) : (s.cell a).Proper := by
  rcases Memory.read_mem_or_zero s.mem a with hmem | hzero
  · exact (h.cells _ hmem).2
  · exact (show s.cell a = .zero from hzero) ▸ Binary64.zero_proper

theorem valAny_proper (h : s.Inv) {o : Operand} {v : Binary64} (hv : s.valAny o = .ok v) :
    v.Proper := by
  rcases State.valAny_eq_ok.1 hv with ⟨-, a, -, -, rfl⟩ | ⟨-, hv⟩
  · exact h.cell_proper a
  · exact State.valRl_proper hv

/-- Outside StoppedError the error registers are clear (10_state.md R36). -/
theorem errors_of_safe (h : s.Inv) (hs : s.Safe) : s.errCode = none ∧ s.errLine = 0 := by
  rcases h.errors with ⟨hr, -, -⟩ | ⟨-, herr⟩
  · exact absurd hr hs
  · exact herr

theorem setReg (h : s.Inv) (r : Reg) (w : RegWord) : (s.setReg r w).Inv := { h with }

theorem writeReg (h : s.Inv) (r : Reg) (v : Binary64) : (s.writeReg r v).Inv := h.setReg r _

theorem setSP (h : s.Inv) (n : Nat) : (s.setSP n).Inv := h.setReg .sp _

theorem setFlags (h : s.Inv) (z n o : Bool) : (s.setFlags z n o).Inv := { h with }

theorem setMatSize (h : s.Inv) {n : Nat} (hn : 1 ≤ n ∧ n ≤ maxLanes) : (s.setMatSize n).Inv :=
  { h with matSize := hn }

theorem setVec (h : s.Inv) (r : VReg) {l : Lanes} (hl : l.Proper) : (s.setVec r l).Inv :=
  { h with
    lanes := fun q => by
      rw [State.setVec_vec]
      split
      · exact hl
      · exact h.lanes q }

theorem putCell (h : s.Inv) {a : Nat} (ha : a < s.memLen) {v : Binary64} (hv : v.Proper) :
    (s.putCell a v).Inv :=
  { h with
    memory := State.putCell_wf h.memory a v
    cells := fun p hp => by
      rcases Memory.mem_write hp with ⟨rfl, -⟩ | hp
      · exact ⟨ha, hv⟩
      · exact h.cells p hp }

theorem putLanes (h : s.Inv) {a : Nat} (ha : a + 3 < s.memLen) {l : Lanes} (hl : l.Proper) :
    (s.putLanes a l).Inv := by
  obtain ⟨hl0, hl1, hl2, hl3⟩ := hl
  have h0 : (s.putCell a l.l0).Inv := h.putCell (Nat.lt_of_add_right_lt ha) hl0
  have h1 := h0.putCell (a := a + 1) (show a + 1 < s.memLen by omega) hl1
  have h2 := h1.putCell (a := a + 2) (show a + 2 < s.memLen by omega) hl2
  exact h2.putCell (show a + 3 < s.memLen from ha) hl3

theorem setPc (h : s.Inv) (hs : s.Safe) {n : Nat} (hn : n ≤ s.progLen) : (s.setPc n).Inv :=
  { h with
    cursor := hn
    errors := .inr ⟨hs, h.errors_of_safe hs⟩ }

theorem advance (h : s.Inv) (hs : s.Safe) (hpc : s.pc < s.progLen) : s.advance.Inv :=
  h.setPc hs hpc

/-- Moving between run states other than StoppedError. -/
theorem setRunState (h : s.Inv) (hs : s.Safe) {r : RunState} (hr : r ≠ .stoppedError) :
    (s.setRunState r).Inv :=
  { h with errors := .inr ⟨hr, h.errors_of_safe hs⟩ }

theorem enterError (h : s.Inv) (e : Err) : (s.enterError e).Inv :=
  { h with errors := .inl ⟨rfl, Option.some_ne_none e, rfl⟩ }

theorem setBpSkip (h : s.Inv) (b : Bool) : { s with bpSkip := b }.Inv := { h with }

theorem skipBlanks (h : s.Inv) (hs : s.Safe) : s.skipBlanks.Inv := by
  refine h.setPc hs ?_
  have hrun := blankRun_le (s.prog.drop s.pc)
  rw [List.length_drop] at hrun
  have hcursor : s.pc ≤ s.prog.length := h.cursor
  change s.pc + _ ≤ s.prog.length
  omega

theorem beginStep (h : s.Inv) (hs : s.Safe) : s.beginStep.Inv := (h.setBpSkip false).skipBlanks hs

theorem settle (h : s.Inv) : s.settle.Inv :=
  { h with errors := by simpa [State.settle, RunState.settle_eq_stoppedError] using h.errors }

/-! ### Every effect and every step keeps the invariant -/

/-- A valid label leads to a statement (44_control_flow.md R240). -/
theorem target_le (h : s.Inv) {id t : Nat} (ht : labelTarget s.labels id = some t) :
    t ≤ s.progLen :=
  le_of_lt (h.labels.2 _ (labelTarget_mem ht)).2

/-- An effect of an instruction that stands at the cursor keeps the invariant. -/
theorem of_effect (h : s.Inv) (hs : s.Safe) (hpc : s.pc < s.progLen) {k : Shape} {t : State}
    (ht : Effect s k t) : t.Inv := by
  cases ht with
  | arith d r => exact ((h.setFlags _ _ _).writeReg d r).advance hs hpc
  | compare a b => exact (h.setFlags _ _ _).advance hs hpc
  | movReg d v => exact (h.writeReg d v).advance hs hpc
  | movMem a v o ha hv => exact (h.putCell ha (h.valAny_proper hv)).advance hs hpc
  | load d a ha => exact (h.writeReg d _).advance hs hpc
  | store a v o ha hv => exact (h.putCell ha (State.valRl_proper hv)).advance hs hpc
  | push v o hsp ha hv => exact ((h.putCell ha (State.valRl_proper hv)).setSP _).advance hs hpc
  | pop d ha => exact ((h.setSP _).writeReg d _).advance hs hpc
  | dup hsp ha =>
    exact ((h.putCell (Nat.sub_lt_of_lt ha) (h.cell_proper _)).setSP _).advance hs hpc
  | swap ha =>
    have h0 := h.putCell (Nat.lt_of_succ_lt ha) (h.cell_proper (s.sp + 1))
    exact (h0.putCell ha (h.cell_proper _)).advance hs hpc
  | rot ha =>
    have h0 := h.putCell (show s.sp < s.memLen by omega) (h.cell_proper (s.sp + 1))
    have h1 := h0.putCell (a := s.sp + 1) (show s.sp + 1 < s.memLen by omega)
      (h.cell_proper (s.sp + 2))
    exact (h1.putCell ha (h.cell_proper _)).advance hs hpc
  | jumpTaken id t ht => exact h.setPc hs (h.target_le ht)
  | jumpUntaken => exact h.advance hs hpc
  | call id t hsp ha ht =>
    exact ((h.putCell ha (Binary64.ofNat_proper _)).setSP _).setPc hs (h.target_le ht)
  | ret n ha hn hle => exact (h.setSP _).setPc hs hle
  | lanes f d a b hf => exact (h.setVec d (hf.map2_proper (h.lanes a) (h.lanes b))).advance hs hpc
  | vload d a ha =>
    exact (h.setVec d ⟨h.cell_proper a, h.cell_proper (a + 1), h.cell_proper (a + 2),
      h.cell_proper (a + 3)⟩).advance hs hpc
  | vstore d a ha => exact (h.putLanes ha (h.lanes d)).advance hs hpc
  | matSize n hn => exact (h.setMatSize hn).advance hs hpc
  | pass => exact h.advance hs hpc
  | halt => exact h.setRunState hs (by decide)

theorem of_exec (h : s.Inv) (hs : s.Safe) (hpc : s.pc < s.progLen) {i : Instr} {t : State}
    (ht : exec i s = .next t) : t.Inv := by
  rcases exec_effect ht with ⟨e, rfl⟩ | ht
  · exact h.enterError e
  · exact h.of_effect hs hpc ht

theorem of_stepWith (h : s.Inv) {hook : Nat → Bool} {t : State} (ht : stepWith hook s = .next t) :
    t.Inv := by
  cases stepWith_answers ht with
  | halted => exact h
  | pause hs => exact (h.setBpSkip true).setRunState (State.safe_of_not_halted hs) (by decide)
  | atEnd hs =>
    have hsafe := State.safe_of_not_halted hs
    exact (h.beginStep hsafe).setRunState hsafe (by decide)
  | unknown hs => exact (h.beginStep (State.safe_of_not_halted hs)).enterError _
  | ran hs _ i u hf hu =>
    have hsafe := State.safe_of_not_halted hs
    exact ((h.beginStep hsafe).of_exec hsafe (State.pc_lt_of_fetch hf) hu).settle

end State.Inv

/-- Settles O19: a step is one of the answers of `StepAnswers`, and each of them keeps the invariant. -/
theorem invariantKeptByEveryStep : Obligations.InvariantKeptByEveryStep :=
  fun _ _ _ h => ⟨fun ht => h.of_stepWith ht, fun ht => h.of_stepWith ht⟩

end Machine

end Sys2Proof
end

section
/-! Numbers: rounding finds the nearest multiple of the spacing around the quotient, no number with a
53-bit significand lies nearer, and up to 2^53 integers, literals and addresses are exact. -/

namespace Sys2Proof

/-! ### The nearest multiple -/

/-- The multiple of `d` nearest to `num`, ties to the even one, counted in `d`. -/
def nearestEven (num d : Nat) : Nat :=
  if 2 * (num % d) < d then num / d
  else if d < 2 * (num % d) then num / d + 1
  else num / d + num / d % 2

/-- How far a number lies from `num`. -/
abbrev gap (num x : Nat) : Nat := ((num : Int) - (x : Nat)).natAbs

/-- The multiple below, the multiple above, or on a tie the even one of the two. -/
theorem nearestEven_cases (num d : Nat) :
    (nearestEven num d = num / d ∨ nearestEven num d = num / d + 1) ∧
    (2 * (num % d) < d → nearestEven num d = num / d) ∧
    (d < 2 * (num % d) → nearestEven num d = num / d + 1) ∧
    (2 * (num % d) = d → nearestEven num d % 2 = 0) := by
  unfold nearestEven
  split
  · omega
  · split <;> omega

/-- Where a multiple of `d` lies from the multiples `k * d` and `(k + 1) * d`. -/
theorem multiple_cases (i k d : Nat) :
    i < k ∧ i * d + d ≤ k * d ∨ i = k ∧ i * d = k * d ∨ i = k + 1 ∧ i * d = k * d + d ∨
      k + 1 < i ∧ k * d + d + d ≤ i * d := by
  rcases Nat.lt_trichotomy i k with hlt | rfl | hgt
  · exact .inl ⟨hlt, Nat.succ_mul i d ▸ Nat.mul_le_mul_right d hlt⟩
  · exact .inr (.inl ⟨rfl, rfl⟩)
  · rcases Nat.lt_or_eq_of_le hgt with hgt | rfl
    · refine .inr (.inr (.inr ⟨hgt, ?_⟩))
      rw [← Nat.succ_mul, ← Nat.succ_mul]
      exact Nat.mul_le_mul_right d hgt
    · exact .inr (.inr (.inl ⟨rfl, Nat.succ_mul k d⟩))

/-- No multiple of `d` is nearer than the one `nearestEven` finds, and another as near means a tie. -/
theorem gap_nearestEven {d : Nat} (hd : 0 < d) (num i : Nat) :
    gap num (nearestEven num d * d) ≤ gap num (i * d) ∧
    (gap num (nearestEven num d * d) = gap num (i * d) →
      i = nearestEven num d ∨ nearestEven num d % 2 = 0) := by
  have hnum : num / d * d + num % d = num := Nat.div_add_mod' num d
  have hrem : num % d < d := Nat.mod_lt num hd
  have hj := nearestEven_cases num d
  have hplace := multiple_cases i (num / d) d
  have hjplace := multiple_cases (nearestEven num d) (num / d) d
  unfold gap
  omega

/-! ### The multiples of the spacing and the other numbers -/

/-- The spacing of the numbers with a 53-bit significand around a quotient (00_scope.md R9). -/
def spacing (num den : Nat) : Nat := 2 ^ ((num / den).log2 - 52)

theorem spacing_pos (num den : Nat) : 0 < spacing num den := Nat.two_pow_pos _

theorem roundQuotient_eq (num den : Nat) :
    roundQuotient num den = nearestEven num (den * spacing num den) * spacing num den := rfl

theorem roundQuotient_mul_den (num den : Nat) :
    roundQuotient num den * den =
      nearestEven num (den * spacing num den) * (den * spacing num den) := by
  rw [roundQuotient_eq, Nat.mul_assoc, Nat.mul_comm (spacing num den)]

/-- A number with a 53-bit significand is a multiple of the spacing, or it lies below the least
quotient with that spacing. -/
theorem HasSignificand.multiple_or_lt {m : Nat} (h : HasSignificand m) (num den : Nat) :
    (∃ i, m = i * spacing num den) ∨
      m < 2 ^ 52 * spacing num den ∧ 2 ^ 52 * spacing num den ≤ num / den := by
  unfold spacing
  generalize hq : num / den = q
  rcases Nat.le_total q.log2 52 with hle | hge
  · exact .inl ⟨m, by rw [Nat.sub_eq_zero_of_le hle, pow_zero, Nat.mul_one]⟩
  · have hpow : 2 ^ 52 * 2 ^ (q.log2 - 52) = 2 ^ q.log2 := by
      rw [← pow_add, Nat.add_sub_cancel' hge]
    have hq0 : q ≠ 0 := by
      rintro rfl
      rw [Nat.log2_zero] at hge
      omega
    rw [hpow]
    rcases Nat.lt_or_ge m (2 ^ q.log2) with hlt | hm
    · exact .inr ⟨hlt, Nat.log2_self_le hq0⟩
    · have hm0 : m ≠ 0 := (lt_of_lt_of_le (Nat.two_pow_pos _) hm).ne'
      have hlog : q.log2 - 52 ≤ m.log2 - 52 := Nat.sub_le_sub_right ((Nat.le_log2 hm0).2 hm) 52
      obtain ⟨i, hi⟩ := (pow_dvd_pow 2 hlog).trans (Nat.dvd_of_mod_eq_zero h)
      exact .inl ⟨i, by rw [hi, Nat.mul_comm]⟩

/-- A number below the spacing's least quotient is farther away than some multiple of the spacing. -/
theorem gap_lt_of_lt_spacing {num den m : Nat} (hden : 0 < den)
    (hm : m < 2 ^ 52 * spacing num den) (hq : 2 ^ 52 * spacing num den ≤ num / den) :
    gap num (2 ^ 52 * (den * spacing num den)) < gap num (m * den) := by
  have hbelow : m * den < 2 ^ 52 * spacing num den * den := Nat.mul_lt_mul_of_pos_right hm hden
  have hnum : 2 ^ 52 * spacing num den * den ≤ num :=
    le_trans (Nat.mul_le_mul_right den hq) (Nat.div_mul_le_self num den)
  rw [Nat.mul_comm den, ← Nat.mul_assoc]
  unfold gap
  omega

/-- The nearest multiple of the spacing is at most as far as any number with a 53-bit significand; one
that is as far is the rounded number itself, or the rounding ended at an even multiple. -/
theorem gap_roundQuotient {num den : Nat} (hden : 0 < den) {m : Nat} (hm : HasSignificand m) :
    gap num (roundQuotient num den * den) ≤ gap num (m * den) ∧
    (gap num (roundQuotient num den * den) = gap num (m * den) →
      m = roundQuotient num den ∨ nearestEven num (den * spacing num den) % 2 = 0) := by
  have hnear := gap_nearestEven (Nat.mul_pos hden (spacing_pos num den)) num
  rw [roundQuotient_mul_den]
  rcases hm.multiple_or_lt num den with ⟨i, rfl⟩ | ⟨hlt, hq⟩
  · obtain ⟨hle, htie⟩ := hnear i
    rw [Nat.mul_assoc, Nat.mul_comm (spacing num den), roundQuotient_eq]
    exact ⟨hle, fun h => (htie h).imp_left (congrArg (· * spacing num den))⟩
  · have hfar := lt_of_le_of_lt (hnear (2 ^ 52)).1 (gap_lt_of_lt_spacing hden hlt hq)
    exact ⟨le_of_lt hfar, fun h => absurd h (ne_of_lt hfar)⟩

/-- An even multiple, of at most 2^53, of a power of two has an even significand. -/
theorem significand_even {j : Nat} (hj : j ≤ 2 ^ 53) (heven : j % 2 = 0) (e : Nat) :
    (j * 2 ^ e) / 2 ^ ((j * 2 ^ e).log2 - 52) % 2 = 0 := by
  obtain ⟨i, rfl⟩ := Nat.dvd_of_mod_eq_zero heven
  have hform : 2 * i * 2 ^ e = 2 ^ (e + 1) * i := by ring
  rw [hform]
  refine Nat.mod_eq_zero_of_dvd (Nat.dvd_div_of_mul_dvd ?_)
  rw [← pow_succ]
  rcases Nat.lt_or_eq_of_le (show i ≤ 2 ^ 52 by omega) with hlt | rfl
  · refine Dvd.dvd.mul_right (pow_dvd_pow 2 ?_) i
    have hbound : 2 ^ (e + 1) * i < 2 ^ (e + 53) := by
      rw [show e + 53 = e + 1 + 52 from rfl, pow_add 2 (e + 1)]
      exact Nat.mul_lt_mul_of_pos_left hlt (Nat.two_pow_pos _)
    rcases Nat.eq_zero_or_pos i with rfl | hpos
    · simp
    · have hne : 2 ^ (e + 1) * i ≠ 0 := (Nat.mul_pos (Nat.two_pow_pos _) hpos).ne'
      have hlog : (2 ^ (e + 1) * i).log2 < e + 53 := (Nat.log2_lt hne).2 hbound
      omega
  · rw [← pow_add, Nat.log2_two_pow]
    exact pow_dvd_pow 2 (by omega)

/-- Rounding ends at a significand of at most 2^53 (`roundQuotient_form`). -/
theorem nearestEven_spacing_le (num den : Nat) :
    nearestEven num (den * spacing num den) ≤ 2 ^ 53 := by
  obtain ⟨j, hj, hform⟩ := roundQuotient_form num den
  rw [roundQuotient_eq, Nat.mul_comm] at hform
  exact Nat.eq_of_mul_eq_mul_left (spacing_pos num den) hform ▸ hj

/-- Settles O21: the rounded number is the nearest multiple of the spacing, and every other number with
a 53-bit significand lies below all quotients with that spacing. -/
theorem flRoundsToNearestTiesToEven : Obligations.FlRoundsToNearestTiesToEven := by
  intro num den hden
  refine ⟨roundQuotient_hasSignificand num den, fun m hm => ?_, fun neg => ?_⟩
  · obtain ⟨hle, htie⟩ := gap_roundQuotient hden hm
    refine ⟨hle, fun h => (htie h).imp_right fun heven => ?_⟩
    exact significand_even (nearestEven_spacing_le num den) heven _
  · rw [Nat.mul_comm, ← Binary64.limit_eq]
    rfl

/-! ### Exact integers -/

namespace Binary64

variable {z : Int}

theorem trunc_ofInt (h : z.natAbs ≤ 2 ^ 53) : (ofInt z).trunc = z := by
  rw [ofInt_exact h]
  simp only [trunc, Nat.mul_div_cancel_left _ unit_pos, decide_eq_true_eq]
  split <;> omega

theorem isZero_ofInt (h : z.natAbs ≤ 2 ^ 53) : (ofInt z).isZero = decide (z = 0) := by
  rw [ofInt_exact h]
  simp [isZero, unit_pos.ne']

theorem units_ofInt (h : z.natAbs ≤ 2 ^ 53) : (ofInt z).units = unit * z := by
  rw [ofInt_exact h]
  simp only [units, decide_eq_true_eq, Nat.cast_mul]
  split
  · next hneg => rw [← mul_neg, Int.ofNat_natAbs_of_nonpos hneg.le, neg_neg]
  · next hpos => rw [Int.natAbs_of_nonneg (Int.not_lt.1 hpos)]

theorem ltNum_ofInt_zero (h : z.natAbs ≤ 2 ^ 53) : (ofInt z).ltNum .zero = decide (z < 0) := by
  have hunits := units_ofInt h
  rw [ofInt_exact h] at hunits ⊢
  have hzero : Binary64.zero.units = 0 := rfl
  have hneg : (unit : Int) * z < 0 ↔ z < 0 := by
    have hpos := unit_pos
    rw [Int.mul_neg_iff]
    omega
  simp only [ltNum, hunits, hzero, hneg]

theorem absAbove_ofInt (h : z.natAbs ≤ 2 ^ 53) (k : Nat) :
    (ofInt z).absAbove k = decide (k < z.natAbs) := by
  rw [ofInt_exact h]
  simp only [absAbove, Nat.mul_lt_mul_left unit_pos]

end Binary64

/-- Settles O22: up to 2^53 the rounding of an integer is the integer. -/
theorem integerResultsAreExactUpTo2Pow53 : Obligations.IntegerResultsAreExactUpTo2Pow53 := by
  intro w z hz
  refine ⟨?_, Binary64.isZero_ofInt hz, Binary64.ltNum_ofInt_zero hz, Binary64.absAbove_ofInt hz _⟩
  rw [maskNum, Binary64.trunc_ofInt hz]

/-! ### Literals and addresses -/

namespace Machine

theorem regOfNumber_of_ge {n : BitVec 4} (h : 8 ≤ n.toNat) : regOfNumber n = none := by
  unfold regOfNumber
  split
  case h_9 => rfl
  all_goals omega

theorem State.reg_le (s : State) (r : Reg) : s.reg r ≤ 2 ^ 53 :=
  le_trans (s.reg_lt r).le (Nat.pow_le_pow_right (by omega) (by omega))

section

variable (s : State) {n : BitVec 4} {r : Reg} {p : Word} (b : LitBase)

theorem State.partVal_reg (hn : regOfNumber n = some r) : s.partVal (.reg n) = .ok (s.reg r) := by
  simp only [State.partVal, numbered_eq_ok.2 hn]

theorem State.partVal_imm (hp : p.toNat ≤ 2 ^ 53) : s.partVal (.imm p b) = .ok p.toNat :=
  congrArg Except.ok (literalNat_eq hp)

theorem State.valRl_reg (hn : regOfNumber n = some r) :
    s.valRl (.reg n) = .ok (.fin false (Binary64.unit * s.reg r)) :=
  State.valRl_eq_ok.2 (.inl ⟨n, r, rfl, hn, Binary64.ofNat_exact (s.reg_le r)⟩)

theorem State.valRl_imm (hp : p.toNat ≤ 2 ^ 53) :
    s.valRl (.imm p b) = .ok (.fin false (Binary64.unit * p.toNat)) :=
  State.valRl_eq_ok.2 (.inr ⟨p, b, rfl, Binary64.ofNat_exact hp⟩)

end

theorem State.ea_mem2 {s : State} {a b : AddrPart} {x y : Nat} (ha : s.partVal a = .ok x)
    (hb : s.partVal b = .ok y) : s.ea (.mem2 a b) = .ok (x + y) := by
  simp only [State.ea, ha, hb, ok_bind]

/-- Settles O6: a register and a literal up to 2^53 have the value of an integer as an operand and as a
part of an address, and the two parts of an address add up. -/
theorem literalsAndAddressesAreExactIntegers : Obligations.LiteralsAndAddressesAreExactIntegers := by
  refine ⟨fun n => regOfNumber_of_ge, fun s n m r q p p' b b' hn hm hp hp' => ?_⟩
  have hr := s.partVal_reg hn
  have hq := s.partVal_reg hm
  have hl := s.partVal_imm b hp
  have hl' := s.partVal_imm b' hp'
  exact ⟨s.valRl_reg hn, s.valRl_imm b hp, hr, hl, State.ea_mem2 hr hq, State.ea_mem2 hr hl,
    State.ea_mem2 hl hr, State.ea_mem2 hl hl'⟩

end Machine

end Sys2Proof
end

section
/-! The host's entry points keep the invariant: the state after `reset()` has it, a loaded program and
the label table of its text fit the bounds it names, and each of the other entry points writes only
fields that leave it standing. -/

namespace Sys2Proof.Machine

/-! ### The label table of a text -/

theorem definitionLine_lt {name : List Char} {ls : List SrcLine} {i target : Nat}
    (h : definitionLine name ls i = some target) : target < i + ls.length := by
  induction ls generalizing i with
  | nil => cases h
  | cons l ls ih =>
    rw [definitionLine] at h
    rw [List.length_cons]
    split at h
    · cases h
      omega
    · have := ih h
      omega

/-- An entry of the label table: its id counts the names, its target is the line of a definition. -/
theorem mem_labelTable {ls : List SrcLine} {names : List (List Char)} {start : Nat} {p : Nat × Nat}
    (h : p ∈ labelTable ls names start) :
    start ≤ p.1 ∧ p.1 < start + names.length ∧ p.2 < ls.length := by
  induction names generalizing start with
  | nil => cases h
  | cons name names ih =>
    rw [List.length_cons]
    have later : p ∈ labelTable ls names (start + 1) →
        start ≤ p.1 ∧ p.1 < start + (names.length + 1) ∧ p.2 < ls.length := fun hp => by
      have := ih hp
      omega
    unfold labelTable at h
    split at h
    · next target htarget =>
      rcases List.mem_cons.1 h with rfl | h
      · have := definitionLine_lt htarget
        exact ⟨le_refl _, by omega, by omega⟩
      · exact later h
    · exact later h

theorem labelTable_sorted (ls : List SrcLine) (names : List (List Char)) (start : Nat) :
    List.Pairwise (fun p q : Nat × Nat => p.1 < q.1) (labelTable ls names start) := by
  induction names generalizing start with
  | nil => exact List.Pairwise.nil
  | cons name names ih =>
    unfold labelTable
    split
    · exact List.pairwise_cons.2 ⟨fun q hq => (mem_labelTable hq).1, ih _⟩
    · exact ih _

/-! ### What a load can do -/

theorem parseText_length (text : List Char) : (parseText text).length = (textLines text).length :=
  List.length_map _

/-- The state after a load of a text whose lines and names fit the capacities
(70_reset_and_hazards.md R342). -/
def State.installText (s : State) (text : List Char) : State :=
  s.install ((parseText text).map (wordOfLine (labelNames (parseText text))))
    (labelTable (parseText text) (labelNames (parseText text)) 0)

/-- A load that answers changes nothing, or it installs a text within the capacities. -/
theorem State.loadProgram_cases {s t : State} {text : List Char}
    (h : s.loadProgram text = .next t) :
    t = s ∨ (parseText text).length ≤ s.params.progMax ∧
      (labelNames (parseText text)).length ≤ s.params.nLabels ∧ t = s.installText text := by
  unfold State.loadProgram at h
  split at h
  · cases h
    exact .inl rfl
  · dsimp only at h
    split at h
    · cases h
      exact .inl rfl
    · split at h
      · cases h
      · next hlines =>
        split at h
        · cases h
        · next hnames =>
          cases h
          exact .inr ⟨Nat.not_lt.1 hlines, Nat.not_lt.1 hnames, rfl⟩

/-! ### The invariant -/

theorem Lanes.zero_proper : Lanes.zero.Proper :=
  ⟨Binary64.zero_proper, Binary64.zero_proper, Binary64.zero_proper, Binary64.zero_proper⟩

namespace State.Inv

theorem resetOf {p : Params} (hp : p.Legal) : (State.resetOf p).Inv where
  params := hp
  memory := Memory.reset_wf p
  cells := fun _ hmem => absurd hmem List.not_mem_nil
  lanes := fun r => by cases r <;> exact Lanes.zero_proper
  matSize := show 1 ≤ maxLanes ∧ maxLanes ≤ maxLanes by decide
  progLen := Nat.zero_le _
  cursor := le_refl _
  labels := ⟨List.Pairwise.nil, fun _ hmem => absurd hmem List.not_mem_nil⟩
  errors := .inr ⟨show RunState.loaded ≠ .stoppedError by decide, rfl, rfl⟩

variable {s : State}

theorem hostReset (h : s.Inv) : s.hostReset.Inv := { resetOf h.params with }

/-- A program and a label table within their bounds are installed into a sound state. -/
theorem install (h : s.Inv) {prog : List StmtWord} {labels : List (Nat × Nat)}
    (hprog : prog.length ≤ s.params.progMax)
    (hsorted : List.Pairwise (fun p q : Nat × Nat => p.1 < q.1) labels)
    (hlabels : ∀ p ∈ labels, p.1 < s.params.nLabels ∧ p.2 < prog.length) :
    (s.install prog labels).Inv :=
  { h.hostReset with
    progLen := hprog
    cursor := Nat.zero_le _
    labels := ⟨hsorted, hlabels⟩ }

theorem installText (h : s.Inv) {text : List Char}
    (hlines : (parseText text).length ≤ s.params.progMax)
    (hnames : (labelNames (parseText text)).length ≤ s.params.nLabels) :
    (s.installText text).Inv := by
  refine h.install (by rwa [List.length_map]) (labelTable_sorted _ _ 0) fun p hp => ?_
  obtain ⟨-, hid, htarget⟩ := mem_labelTable hp
  rw [List.length_map]
  exact ⟨by omega, htarget⟩

theorem of_loadProgram (h : s.Inv) {text : List Char} {t : State}
    (ht : s.loadProgram text = .next t) : t.Inv := by
  rcases State.loadProgram_cases ht with rfl | ⟨hlines, hnames, rfl⟩
  · exact h
  · exact h.installText hlines hnames

theorem setBitWidth (h : s.Inv) (w : Nat) : (s.setBitWidth w).Inv := by
  unfold State.setBitWidth
  split
  · exact { h with }
  · exact h

theorem stop (h : s.Inv) : s.stop.Inv := { h with }

theorem setStopReq (h : s.Inv) (b : Bool) : { s with stopReq := b }.Inv := { h with }

theorem setBreakpoints (h : s.Inv) (l : List Nat) : (s.setBreakpoints l).Inv := { h with }

theorem run (h : s.Inv) : s.run.Inv := by
  have enter : s.Safe → { s with runState := .running, stopReq := false }.Inv := fun hs =>
    (h.setStopReq false).setRunState hs (by decide)
  unfold State.run
  split
  · next hr => exact enter (by simp [State.Safe, hr])
  · exact h
  · next hr => exact enter (by simp [State.Safe, hr])
  · exact h
  · exact h

theorem consumeStop (h : s.Inv) (hs : s.Safe) : s.consumeStop.Inv :=
  (h.setStopReq false).setRunState hs (by decide)

theorem of_tick (h : s.Inv) {hook : Nat → Bool} {t : State} (ht : s.tick hook = .next t) :
    t.Inv := by
  unfold State.tick at ht
  split at ht
  · next hr =>
    split at ht
    · cases ht
      exact h.consumeStop (by simp [State.Safe, hr])
    · exact h.of_stepWith ht
  all_goals
    cases ht
    exact h

end State.Inv

/-- Settles O18: the state after reset, field by field. -/
theorem invariantHoldsAtReset : Obligations.InvariantHoldsAtReset :=
  ⟨State.Inv.resetOf (by decide), fun _ hp => State.Inv.resetOf hp⟩

/-- Settles O20: one lemma for each entry point. -/
theorem invariantKeptByTheHostsEntryPoints : Obligations.InvariantKeptByTheHostsEntryPoints :=
  fun _ _ w l _ h =>
    ⟨h.hostReset, h.setBitWidth w, h.run, h.stop, h.setBreakpoints l, fun _ => h.of_tick,
      fun _ => h.of_loadProgram⟩

end Sys2Proof.Machine
end

section
/-! Nothing reads `MATSIZE` or OVERFLOW: forgetting both before a meaning runs and forgetting them
after comes to the same, so two states that agree in everything else answer alike. Operand resolution,
the checks and the updates of `State` agree by computation on a state and the state that forgets; what
is left to prove is that forgetting passes through the sequencing of a meaning and its writes to
memory. -/

namespace Sys2Proof.Machine

/-- The state with `MATSIZE` and OVERFLOW forgotten (10_state.md R30, R34). -/
def State.forget (s : State) : State := { s with MATSIZE := 0, OVERFLOW := false }

/-- The answer of a meaning with `MATSIZE` and OVERFLOW forgotten. -/
def forgetResult : Result → Result
  | .next t => .next t.forget
  | .fault f => .fault f
  | .refused r => .refused r

theorem forgetResult_eq_next {r : Result} {t : State} :
    forgetResult r = .next t ↔ ∃ u, r = .next u ∧ u.forget = t := by
  cases r <;> simp [forgetResult]

/-! ### Sequencing -/

theorem map_forget_bind {α : Type} (x : Except Err α) (f : α → Except Err State) :
    (x >>= f).map State.forget = x >>= fun a => (f a).map State.forget := by
  cases x <;> rfl

theorem map_forget_bind_left {α : Type} (x : Except Err State) (f : State → Except Err α) :
    x.map State.forget >>= f = x >>= fun t => f t.forget := by
  cases x <;> rfl

theorem State.forget_memLen (s : State) : s.forget.memLen = s.memLen := rfl

theorem State.forget_memWrite (s : State) (a : Nat) (v : Binary64) :
    s.forget.memWrite a v = (s.memWrite a v).map State.forget := by
  unfold State.memWrite
  rw [State.forget_memLen]
  split <;> rfl

theorem State.forget_memWrite4 (s : State) (a : Nat) (l : Lanes) :
    s.forget.memWrite4 a l = (s.memWrite4 a l).map State.forget := by
  unfold State.memWrite4
  rw [State.forget_memLen]
  split <;> rfl

theorem State.forget_pushCell (s : State) (v : Binary64) :
    s.forget.pushCell v = (s.pushCell v).map State.forget := by
  simp only [State.pushCell, State.forget_memWrite, map_forget_bind, map_forget_bind_left]
  rfl

/-! ### The meanings -/

theorem forgetResult_attempt (s : State) (r : Except Err State) :
    forgetResult (attempt s r) = attempt s.forget (r.map State.forget) := by
  cases r <;> rfl

/-- A computation that forgets either way alike answers alike. -/
theorem attempt_forget {s : State} {r r' : Except Err State}
    (h : r'.map State.forget = r.map State.forget) :
    forgetResult (attempt s.forget r') = forgetResult (attempt s r) := by
  rw [forgetResult_attempt, forgetResult_attempt, h]
  rfl

theorem binaryArith_forget (f : Binary64 → Binary64 → Binary64) (o : Operands) (s : State) :
    (binaryArith f o s.forget).map State.forget = (binaryArith f o s).map State.forget := by
  simp only [binaryArith, map_forget_bind]
  rfl

theorem unaryArith_forget (f : Binary64 → Binary64) (o : Operands) (s : State) :
    (unaryArith f o s.forget).map State.forget = (unaryArith f o s).map State.forget := by
  simp only [unaryArith, map_forget_bind]
  rfl

theorem laneWise_forget (f : Binary64 → Binary64 → Binary64) (o : Operands) (s : State) :
    (laneWise f o s.forget).map State.forget = (laneWise f o s).map State.forget := by
  simp only [laneWise, map_forget_bind]
  rfl

/-- The condition of a jump reads FLAGS and FLAG alone (44_control_flow.md R241). -/
theorem condJump_forget (c : Bool) (o : Operands) (s : State) :
    (condJump c o s.forget).map State.forget = (condJump c o s).map State.forget := by
  cases c
  · simp only [condJump, map_forget_bind, Bool.false_eq_true, if_false]
    rfl
  · simp only [condJump, map_forget_bind, if_true]
    rfl

theorem movToMemory_forget (o : Operands) (s : State) :
    (movToMemory o s.forget).map State.forget = (movToMemory o s).map State.forget := by
  simp only [movToMemory, State.forget_memWrite, map_forget_bind, map_forget_bind_left]
  rfl

theorem movToRegister_forget (o : Operands) (s : State) :
    (movToRegister o s.forget).map State.forget = (movToRegister o s).map State.forget := by
  simp only [movToRegister, map_forget_bind]
  rfl

/-- What an instruction does to the rest of the state does not depend on `MATSIZE` and OVERFLOW. -/
theorem forgetResult_exec (i : Instr) (s : State) :
    forgetResult (exec i s.forget) = forgetResult (exec i s) := by
  cases i with
  | add o => exact attempt_forget (binaryArith_forget _ o s)
  | sub o => exact attempt_forget (binaryArith_forget _ o s)
  | mul o => exact attempt_forget (binaryArith_forget _ o s)
  | div o => exact attempt_forget (by simp only [map_forget_bind]; rfl)
  | and o => exact attempt_forget (binaryArith_forget _ o s)
  | or o => exact attempt_forget (binaryArith_forget _ o s)
  | xor o => exact attempt_forget (binaryArith_forget _ o s)
  | inc o => exact attempt_forget (unaryArith_forget _ o s)
  | dec o => exact attempt_forget (unaryArith_forget _ o s)
  | not o => exact attempt_forget (unaryArith_forget _ o s)
  | cmp o => exact attempt_forget (by simp only [map_forget_bind]; rfl)
  | mov o =>
    refine attempt_forget ?_
    simp only [map_forget_bind]
    split
    · rw [movToMemory_forget]
    · rw [movToRegister_forget]
  | load o => exact attempt_forget (by simp only [map_forget_bind]; rfl)
  | store o =>
    exact attempt_forget
      (by simp only [State.forget_memWrite, map_forget_bind, map_forget_bind_left]; rfl)
  | push o =>
    exact attempt_forget
      (by simp only [State.forget_pushCell, map_forget_bind, map_forget_bind_left]; rfl)
  | pop o => exact attempt_forget (by simp only [map_forget_bind]; rfl)
  | dup o =>
    exact attempt_forget
      (by simp only [State.forget_pushCell, map_forget_bind, map_forget_bind_left]; rfl)
  | swap o =>
    exact attempt_forget
      (by simp only [State.forget_memWrite, map_forget_bind, map_forget_bind_left]; rfl)
  | rot o =>
    exact attempt_forget
      (by simp only [State.forget_memWrite, map_forget_bind, map_forget_bind_left]; rfl)
  | jmp o => exact attempt_forget (condJump_forget _ o s)
  | je o => exact attempt_forget (condJump_forget _ o s)
  | jz o => exact attempt_forget (condJump_forget _ o s)
  | jne o => exact attempt_forget (condJump_forget _ o s)
  | jnz o => exact attempt_forget (condJump_forget _ o s)
  | jl o => exact attempt_forget (condJump_forget _ o s)
  | jg o => exact attempt_forget (condJump_forget _ o s)
  | jle o => exact attempt_forget (condJump_forget _ o s)
  | jge o => exact attempt_forget (condJump_forget _ o s)
  | call o =>
    exact attempt_forget
      (by simp only [State.forget_pushCell, map_forget_bind, map_forget_bind_left]; rfl)
  | ret o => exact attempt_forget (by simp only [map_forget_bind]; rfl)
  | vadd o => exact attempt_forget (laneWise_forget _ o s)
  | vmul o => exact attempt_forget (laneWise_forget _ o s)
  | vdiv o => exact attempt_forget (by simp only [map_forget_bind]; rfl)
  | vload o => exact attempt_forget (by simp only [map_forget_bind]; rfl)
  | vstore o =>
    exact attempt_forget
      (by simp only [State.forget_memWrite4, map_forget_bind, map_forget_bind_left]; rfl)
  | setmatsize o => exact attempt_forget (by simp only [map_forget_bind]; rfl)
  | blank => rfl
  | label id => rfl
  | halt => rfl

/-! ### The step -/

theorem forgetResult_settleResult (r : Result) :
    forgetResult (settleResult r) = settleResult (forgetResult r) := by
  cases r <;> rfl

theorem forgetResult_stepWith (hook : Nat → Bool) (s : State) :
    forgetResult (stepWith hook s.forget) = forgetResult (stepWith hook s) := by
  have hhalted : s.forget.halted = s.halted := rfl
  have hpauses : s.forget.pausesHere hook = s.pausesHere hook := rfl
  have hbegin : s.forget.beginStep = s.beginStep.forget := rfl
  have hfetch : s.beginStep.forget.fetch = s.beginStep.fetch := rfl
  simp only [stepWith, runStep, hhalted, hpauses, hbegin, hfetch]
  cases s.halted
  · cases s.pausesHere hook
    · simp only [Bool.false_eq_true, if_false]
      split
      · rfl
      · rfl
      · rw [forgetResult_settleResult, forgetResult_settleResult, forgetResult_exec]
    · rfl
  · rfl

/-- Settles O54: the two states are one when `MATSIZE` and OVERFLOW are forgotten. -/
theorem nothingReadsMatsizeOrOverflow : Obligations.NothingReadsMatsizeOrOverflow := by
  intro hook s t m b h
  refine forgetResult_eq_next.1 ?_
  calc forgetResult (stepWith hook { s with MATSIZE := m, OVERFLOW := b })
      = forgetResult (stepWith hook s.forget) := (forgetResult_stepWith hook _).symm
    _ = forgetResult (stepWith hook s) := forgetResult_stepWith hook s
    _ = .next t.forget := congrArg forgetResult h

end Sys2Proof.Machine
end

section
/-! What an update leaves alone: one frame lemma for each update of `State`, and frames compose. Then
the instructions that write a register, push and pop, each on operands that resolve. -/

namespace Sys2Proof.Machine

/-! ### Frames -/

namespace FrameBut

variable {rs rs' : List Reg} {vs vs' : List VReg} {cs cs' : List Nat} {s t u : State}

theorem trans (h : FrameBut rs vs cs s t) (h' : FrameBut rs' vs' cs' t u) :
    FrameBut (rs ++ rs') (vs ++ vs') (cs ++ cs') s u := by
  obtain ⟨hr, hv, hc, ⟨hz, hn, ho⟩, hm, h1, h2, h3, h4, h5, h6, h7, h8, h9, h10⟩ := h
  obtain ⟨kr, kv, kc, ⟨kz, kn, ko⟩, km, k1, k2, k3, k4, k5, k6, k7, k8, k9, k10⟩ := h'
  refine ⟨fun r h => ?_, fun r h => ?_, fun a h => ?_, ⟨kz.trans hz, kn.trans hn, ko.trans ho⟩,
    km.trans hm, k1.trans h1, k2.trans h2, k3.trans h3, k4.trans h4, k5.trans h5, k6.trans h6,
    k7.trans h7, k8.trans h8, k9.trans h9, k10.trans h10⟩ <;>
    rw [List.mem_append, not_or] at h
  · exact (kr r h.2).trans (hr r h.1)
  · exact (kv r h.2).trans (hv r h.1)
  · exact (kc a h.2).trans (hc a h.1)

/-- A frame speaks of its lists as sets. -/
theorem mono (h : FrameBut rs vs cs s t) (hrs : rs ⊆ rs') (hvs : vs ⊆ vs') (hcs : cs ⊆ cs') :
    FrameBut rs' vs' cs' s t := by
  obtain ⟨hr, hv, hc, hrest⟩ := h
  exact ⟨fun r h => hr r fun hm => h (hrs hm), fun r h => hv r fun hm => h (hvs hm),
    fun a h => hc a fun hm => h (hcs hm), hrest⟩

variable (s)

theorem setReg (r : Reg) (w : RegWord) : FrameBut [r] [] [] s (s.setReg r w) := by
  refine ⟨fun q hq => ?_, fun _ _ => rfl, fun _ _ => rfl, ⟨rfl, rfl, rfl⟩, rfl,
    by simp [ControlKept]⟩
  rw [State.setReg_reg, if_neg (mt List.mem_singleton.2 hq)]

theorem writeReg (r : Reg) (v : Binary64) : FrameBut [r] [] [] s (s.writeReg r v) := setReg s r _

theorem setSP (n : Nat) : FrameBut [.sp] [] [] s (s.setSP n) := setReg s .sp _

theorem putCell (a : Nat) (v : Binary64) : FrameBut [] [] [a] s (s.putCell a v) :=
  ⟨fun _ _ => rfl, fun _ _ => rfl,
    fun _ hb => State.putCell_cell_other s v (mt List.mem_singleton.2 hb), ⟨rfl, rfl, rfl⟩, rfl,
    by simp [ControlKept]⟩

theorem setPc (n : Nat) : FrameBut [] [] [] s (s.setPc n) :=
  ⟨fun _ _ => rfl, fun _ _ => rfl, fun _ _ => rfl, ⟨rfl, rfl, rfl⟩, rfl, by simp [ControlKept]⟩

theorem advance : FrameBut [] [] [] s s.advance := setPc s _

end FrameBut

/-! ### Instructions on operands that resolve -/

theorem regOf_reg {n : BitVec 4} {d : Reg} (hd : regOfNumber n = some d) : regOf (.reg n) = .ok d :=
  regOf_eq_ok.2 ⟨n, rfl, hd⟩

/-- A test that holds passes. -/
theorem require_decide {p : Prop} [Decidable p] (e : Err) (h : p) : require (decide p) e = .ok () :=
  require_eq_ok.2 (decide_eq_true h)

/-- An instruction whose checks pass completes. -/
theorem attempt_of_ok {s t : State} {r : Except Err State} (h : r = .ok t) :
    attempt s r = .next t :=
  congrArg (attempt s) h

variable {s : State}

theorem exec_mov_reg {n : BitVec 4} {d : Reg} {src o2 : Operand} {v : Binary64}
    (hd : regOfNumber n = some d) (hv : s.valAny src = .ok v) :
    exec (.mov ⟨2, .reg n, src, o2⟩) s = .next (s.writeReg d v).advance := by
  refine attempt_of_ok (bind_eq_ok.2 ⟨(), rfl, ?_⟩)
  change movToRegister _ s = _
  simp only [movToRegister, bind_eq_ok]
  exact ⟨d, regOf_reg hd, v, hv, rfl⟩

theorem exec_push {src o1 o2 : Operand} {v : Binary64} (hv : s.valRl src = .ok v) (hpos : 0 < s.sp)
    (hle : s.sp ≤ s.memLen) :
    exec (.push ⟨1, src, o1, o2⟩) s =
      .next ((s.putCell (s.sp - 1) v).setSP (s.sp - 1)).advance := by
  refine attempt_of_ok ?_
  simp only [bind_eq_ok, State.pushCell_eq_ok]
  exact ⟨(), rfl, v, hv, (), require_decide _ hpos, _, ⟨by omega, rfl⟩, rfl⟩

theorem exec_pop {n : BitVec 4} {d : Reg} {o1 o2 : Operand} (hd : regOfNumber n = some d)
    (hlt : s.sp < s.memLen) :
    exec (.pop ⟨1, .reg n, o1, o2⟩) s =
      .next ((s.setSP (s.sp + 1)).writeReg d (s.cell s.sp)).advance := by
  refine attempt_of_ok ?_
  simp only [bind_eq_ok, State.memRead_eq_ok]
  exact ⟨(), rfl, d, regOf_reg hd, (), require_decide _ hlt, _, ⟨hlt, rfl⟩, rfl⟩

theorem exec_call {id : BitVec 16} {target : Nat} {o1 o2 : Operand}
    (ht : labelTarget s.labels id.toNat = some target) (hpos : 0 < s.sp) (hle : s.sp ≤ s.memLen) :
    exec (.call ⟨1, .label id, o1, o2⟩) s =
      .next
        (((s.putCell (s.sp - 1) (Binary64.ofNat (s.pc + 1))).setSP (s.sp - 1)).setPc target) := by
  refine attempt_of_ok ?_
  simp only [bind_eq_ok, State.pushCell_eq_ok]
  exact ⟨(), rfl, (), require_decide _ hpos, target, State.targetOf_eq_ok.2 ⟨id, rfl, ht⟩, _,
    ⟨by omega, rfl⟩, rfl⟩

/-- Settles O31: the instruction is one masked register write. -/
theorem movToRegisterMasksTheSource : Obligations.MovToRegisterMasksTheSource := by
  intro s n d src o2 v hd hv
  refine ⟨_, exec_mov_reg hd hv, ?_, rfl, (FrameBut.writeReg s d v).trans (.advance _)⟩
  exact (State.writeReg_reg s d d v).trans (if_pos rfl)

/-! ### The cell below SP -/

variable (s)

/-- The update of SP that a push makes. -/
theorem State.sp_push (a : Nat) (v : Binary64) :
    ((s.putCell a v).setSP (s.sp - 1)).sp = s.sp - 1 :=
  (State.setSP_reg _ _ (lt_of_le_of_lt (Nat.sub_le _ _) s.sp_lt) .sp).trans (if_pos rfl)

theorem FrameBut.push (a : Nat) (v : Binary64) (n : Nat) :
    FrameBut [.sp] [] [a] s ((s.putCell a v).setSP n) :=
  (FrameBut.putCell s a v).trans (FrameBut.setSP _ n)

/-- Settles O38: the cell below SP is written, then SP moves there. -/
theorem pushWritesBelowTheStackPointer : Obligations.PushWritesBelowTheStackPointer := by
  intro s src o1 o2 v hwf hv hpos hle
  exact ⟨_, exec_push hv hpos hle, State.putCell_cell_same hwf _ v, s.sp_push _ v, rfl,
    (FrameBut.push s _ v _).trans (.advance _)⟩

/-- Settles O45: the return index is pushed, then the cursor goes to the label. -/
theorem callPushesTheReturnIndex : Obligations.CallPushesTheReturnIndex := by
  intro s id target o1 o2 hwf ht hpos hle
  exact ⟨_, exec_call ht hpos hle, State.putCell_cell_same hwf _ _, s.sp_push _ _, rfl,
    (FrameBut.push s _ _ _).trans (.setPc _ _)⟩

/-- Settles O39: SP moves up, then the register is written, so that `POP SP` ends with it. -/
theorem popReadsTheTopCell : Obligations.PopReadsTheTopCell := by
  intro s n d o1 o2 hlegal hd hlt
  obtain ⟨-, hmemLen, -⟩ := hlegal
  have hsp : s.sp + 1 < 2 ^ 32 := lt_of_le_of_lt hlt hmemLen
  refine ⟨_, exec_pop hd hlt, ?_, fun hne => ?_, rfl, ?_⟩
  · exact (State.writeReg_reg _ d d _).trans (if_pos rfl)
  · calc ((s.setSP (s.sp + 1)).writeReg d (s.cell s.sp)).reg .sp
        = (s.setSP (s.sp + 1)).reg .sp := (State.writeReg_reg _ _ _ _).trans (if_neg hne.symm)
      _ = s.sp + 1 := (State.setSP_reg s _ hsp .sp).trans (if_pos rfl)
  · have hframe := ((FrameBut.setSP s (s.sp + 1)).trans (.writeReg _ d (s.cell s.sp))).trans
      (.advance _)
    exact hframe.mono (by simp) (by simp) (by simp)

end Sys2Proof.Machine
end

section
/-! Whole numbers as values: their comparison, and which values read back as a natural number. With
them CMP and SETMATSIZE; then the width and the breakpoint pause, which write one or two fields. -/

namespace Sys2Proof

namespace Binary64

theorem eqNum_unit_mul (a b : Nat) :
    eqNum (.fin false (unit * a)) (.fin false (unit * b)) = decide (a = b) := by
  simp [eqNum, units, unit_pos.ne']

theorem ltNum_unit_mul (a b : Nat) :
    ltNum (.fin false (unit * a)) (.fin false (unit * b)) = decide (a < b) := by
  simp [ltNum, units, unit_pos]

/-- The values that are the positive integer `n` (00_scope.md R9). -/
theorem toNat?_eq_some_of_pos {v : Binary64} {n : Nat} (hn : 0 < n) :
    v.toNat? = some n ↔ v = .fin false (unit * n) := by
  constructor
  · intro h
    cases v with
    | nan => cases h
    | inf neg => cases h
    | fin neg m =>
      simp only [toNat?] at h
      split at h
      · cases h
        omega
      · split at h
        · cases h
        · next hneg =>
          split at h
          · next hdvd =>
            cases h
            rw [Bool.eq_false_of_not_eq_true hneg,
              Nat.mul_div_cancel' (Nat.dvd_of_mod_eq_zero hdvd)]
          · cases h
  · rintro rfl
    have hne : unit * n ≠ 0 := (Nat.mul_pos unit_pos hn).ne'
    simp [toNat?, hne, Nat.mul_div_cancel_left n unit_pos]

end Binary64

namespace Machine

variable {s : State}

/-! ### CMP -/

theorem State.regNum_eq (s : State) (r : Reg) :
    s.regNum r = .fin false (Binary64.unit * s.reg r) :=
  Binary64.ofNat_exact (s.reg_le r)

/-- A register or a decimal literal resolves to the integer that `operandNat` names (30_encoding.md
R121). -/
theorem State.valRl10_of_operandNat {o : Operand} {k : Nat} (h : s.operandNat o = some k) :
    s.valRl10 o = .ok (.fin false (Binary64.unit * k)) := by
  unfold State.operandNat at h
  split at h
  · next n =>
    obtain ⟨r, hr, rfl⟩ := Option.map_eq_some_iff.1 h
    exact State.valRl10_eq_ok.2 (.inl ⟨n, r, rfl, hr, s.regNum_eq r⟩)
  · next p =>
    cases h
    exact State.valRl10_eq_ok.2 (.inr ⟨p, rfl, literalValue_eq p⟩)
  · cases h

/-- Settles O29: register and source are whole numbers, and whole numbers compare as such. -/
theorem cmpComparesUnsignedAndWritesTwoFlags :
    Obligations.CmpComparesUnsignedAndWritesTwoFlags := by
  intro s n d src o2 k hd hk
  refine attempt_of_ok ?_
  simp only [bind_eq_ok]
  refine ⟨(), rfl, d, regOf_reg hd, _, State.valRl10_of_operandNat hk, ?_⟩
  rw [s.regNum_eq d, State.compareFlags, Binary64.eqNum_unit_mul, Binary64.ltNum_unit_mul]
  rfl

/-! ### SETMATSIZE -/

/-- The accepted values are the rounded integers from 1 to MAXLANES (46_config.md R291). -/
theorem matSizeOf_eq_ok_iff {v : Binary64} {n : Nat} :
    matSizeOf v = .ok n ↔ (1 ≤ n ∧ n ≤ 4) ∧ v = Binary64.ofNat n := by
  rw [matSizeOf_eq_ok, and_comm]
  refine and_congr_right fun ⟨h1, h4⟩ => ?_
  have hle : n ≤ 4 := h4
  rw [Binary64.toNat?_eq_some_of_pos h1, Binary64.ofNat_exact (by omega)]

theorem matSizeOf_eq_error {v : Binary64} (h : ∀ n, matSizeOf v ≠ .ok n) :
    matSizeOf v = .error .invalidOperand := by
  unfold matSizeOf at h ⊢
  split
  · next n hn =>
    rw [if_neg]
    intro hle
    exact h n (by simp [hn, hle])
  · rfl

/-- Settles O53: the value check accepts the four integers and no other value. -/
theorem setmatsizeTakesOneToFour : Obligations.SetmatsizeTakesOneToFour := by
  intro s src o1 o2 v hv
  refine ⟨fun k h1 h4 hk => attempt_of_ok ?_, fun hother => ?_⟩
  · simp only [bind_eq_ok]
    exact ⟨(), rfl, v, hv, k, matSizeOf_eq_ok_iff.2 ⟨⟨h1, h4⟩, hk⟩, rfl⟩
  · have hbad := matSizeOf_eq_error (v := v) fun n hn =>
      have ⟨⟨h1, h4⟩, hn⟩ := matSizeOf_eq_ok_iff.1 hn
      hother n h1 h4 hn
    refine (attempt_eq_next _ _ _).2 (.inr ⟨_, ?_, rfl⟩)
    change (s.valRl src >>= _) = _
    rw [hv, ok_bind, hbad, error_bind]

/-! ### The width -/

theorem widthOfNat_eq_none {w : Nat} (h8 : w ≠ 8) (h16 : w ≠ 16) (h32 : w ≠ 32) :
    widthOfNat w = none := by
  unfold widthOfNat
  split
  · exact absurd rfl h8
  · exact absurd rfl h16
  · exact absurd rfl h32
  · rfl

/-- Settles O55: the three members of WIDTHS, and every other request. -/
theorem setBitWidthChangesTheWidthAlone : Obligations.SetBitWidthChangesTheWidthAlone := by
  refine fun s => ⟨rfl, rfl, rfl, fun w hw => ?_, fun w h8 h16 h32 => ?_⟩
  · rcases hw with rfl | rfl | rfl <;> exact ⟨rfl, rfl⟩
  · rw [State.setBitWidth, widthOfNat_eq_none h8 h16 h32]

/-! ### The breakpoint pause -/

/-- With `bp_skip` set, a step does not ask its hook (40_sequencer.md R145). -/
theorem stepWith_of_bpSkip (hook hook' : Nat → Bool) (h : s.bpSkip = true) :
    stepWith hook s = stepWith hook' s := by
  have hskip : ∀ f : Nat → Bool, s.pausesHere f = false := fun f => by simp [State.pausesHere, h]
  simp only [stepWith, runStep, hskip]

theorem stepWith_pause {hook : Nat → Bool} (hs : s.halted = false) (hp : s.pausesHere hook = true) :
    stepWith hook s = .next s.pauseAtBreakpoint := by
  simp [stepWith, runStep, hs, hp]

/-- Settles O9: the pause sets the bit that keeps the next step from asking a hook. -/
theorem breakpointPausesOnce : Obligations.BreakpointPausesOnce := by
  intro hook s hs hskip hhook
  have hp : s.pausesHere hook = true := by simp [State.pausesHere, hskip, hhook]
  have hstep := stepWith_pause hs hp
  refine ⟨hstep, ?_, fun hook' => stepWith_of_bpSkip hook' _ rfl⟩
  simp [stepContinues, hstep, hp]

end Machine

end Sys2Proof
end

section
/-! Who writes what: each kind of state is kept by every effect but those of its writers, no effect
changes the program or the settings, and a register is written masked or SP moves by one. -/

namespace Sys2Proof.Machine

/-! ### The writers, by shape of effect -/

/-- The shapes that write the flags (10_state.md R31). -/
def Shape.writesFlags : Shape → Bool
  | .arith | .compare => true
  | _ => false

/-- The shapes that write memory cells (20_memory.md R67). -/
def Shape.writesCells : Shape → Bool
  | .mov | .store | .push | .dup | .swap | .rot | .call | .vstore => true
  | _ => false

/-- The shapes that write a vector register (10_state.md R38). -/
def Shape.writesVectors : Shape → Bool
  | .lanes | .vload => true
  | _ => false

/-- The shapes that write a scalar register (10_state.md R23, R25). -/
def Shape.writesRegs : Shape → Bool
  | .arith | .mov | .load | .push | .pop | .dup | .call | .ret => true
  | _ => false

theorem writesFlags_eq (i : Instr) : writesFlags i = (shapeOf i).writesFlags := by cases i <;> rfl

theorem writesCells_eq (i : Instr) : writesCells i = (shapeOf i).writesCells := by cases i <;> rfl

theorem writesVectors_eq (i : Instr) : writesVectors i = (shapeOf i).writesVectors := by
  cases i <;> rfl

theorem writesRegs_eq (i : Instr) : writesRegs i = (shapeOf i).writesRegs := by cases i <;> rfl

/-! ### What an effect keeps -/

variable {s t u : State} {k : Shape}

/-- The program store, the label table, the settings, the stop request and the hook are kept. -/
def ProgramKept (s t : State) : Prop :=
  t.prog = s.prog ∧ t.labels = s.labels ∧ t.W = s.W ∧ t.params = s.params ∧
  t.stopReq = s.stopReq ∧ t.breakpoints = s.breakpoints

theorem ProgramKept.trans (h : ProgramKept s t) (h' : ProgramKept t u) : ProgramKept s u := by
  obtain ⟨h1, h2, h3, h4, h5, h6⟩ := h
  obtain ⟨k1, k2, k3, k4, k5, k6⟩ := h'
  exact ⟨k1.trans h1, k2.trans h2, k3.trans h3, k4.trans h4, k5.trans h5, k6.trans h6⟩

namespace Effect

theorem flagsKept (h : Effect s k t) (hk : k.writesFlags = false) : FlagsKept s t := by
  cases h with
  | arith => cases hk
  | compare => cases hk
  | vstore => simp [FlagsKept, State.putLanes]
  | halt => simp [FlagsKept, State.complete]
  | _ => simp [FlagsKept]

theorem overflow_kept (h : Effect s .compare t) : t.OVERFLOW = s.OVERFLOW := by
  cases h
  rfl

theorem cellsKept (h : Effect s k t) (hk : k.writesCells = false) : CellsKeptBut [] s t := by
  cases h with
  | movMem => cases hk
  | store => cases hk
  | push => cases hk
  | dup => cases hk
  | swap => cases hk
  | rot => cases hk
  | call => cases hk
  | vstore => cases hk
  | arith => simp [CellsKeptBut, State.commitArith]
  | halt => simp [CellsKeptBut, State.complete]
  | _ => simp [CellsKeptBut]

theorem vecsKept (h : Effect s k t) (hk : k.writesVectors = false) : VecsKeptBut [] s t := by
  cases h with
  | lanes => cases hk
  | vload => cases hk
  | arith => simp [VecsKeptBut, State.commitArith]
  | vstore => simp [VecsKeptBut, State.putLanes]
  | halt => simp [VecsKeptBut, State.complete]
  | _ => simp [VecsKeptBut]

theorem regsKept (h : Effect s k t) (hk : k.writesRegs = false) : RegsKeptBut [] s t := by
  cases h with
  | arith => cases hk
  | movReg => cases hk
  | load => cases hk
  | push => cases hk
  | pop => cases hk
  | dup => cases hk
  | call => cases hk
  | ret => cases hk
  | vstore => simp [RegsKeptBut, State.putLanes]
  | halt => simp [RegsKeptBut, State.complete]
  | _ => simp [RegsKeptBut]

/-- No effect has an update of these fields. -/
theorem programKept (h : Effect s k t) : ProgramKept s t := by
  cases h with
  | arith => simp [ProgramKept, State.commitArith]
  | vstore => simp [ProgramKept, State.putLanes]
  | halt => simp [ProgramKept, State.complete]
  | _ => simp [ProgramKept]

end Effect

/-- Settles O58: an error keeps all four kinds of state, an effect those it does not write. -/
theorem eachKindOfStateHasItsWriters : Obligations.EachKindOfStateHasItsWriters := by
  intro i s t h
  rw [writesFlags_eq, writesCells_eq, writesVectors_eq, writesRegs_eq]
  rcases exec_effect h with ⟨e, rfl⟩ | h
  · exact ⟨fun _ => ⟨rfl, rfl, rfl⟩, fun _ _ => rfl, fun _ _ _ => rfl, fun _ _ _ => rfl,
      fun _ _ _ => rfl⟩
  · refine ⟨h.flagsKept, ?_, h.cellsKept, h.vecsKept, h.regsKept⟩
    rintro o rfl
    exact h.overflow_kept

/-- Settles O59: every way through a step changes other fields. -/
theorem noStepChangesTheProgramOrTheWidth : Obligations.NoStepChangesTheProgramOrTheWidth := by
  intro hook s t h
  change ProgramKept s t
  cases stepWith_answers h with
  | halted => exact ⟨rfl, rfl, rfl, rfl, rfl, rfl⟩
  | pause => exact ⟨rfl, rfl, rfl, rfl, rfl, rfl⟩
  | atEnd => exact ⟨rfl, rfl, rfl, rfl, rfl, rfl⟩
  | unknown => exact ⟨rfl, rfl, rfl, rfl, rfl, rfl⟩
  | ran hs hp i u hf hu =>
    have hbegin : ProgramKept s s.beginStep := ⟨rfl, rfl, rfl, rfl, rfl, rfl⟩
    have hsettle : ProgramKept u u.settle := ⟨rfl, rfl, rfl, rfl, rfl, rfl⟩
    refine (hbegin.trans ?_).trans hsettle
    rcases exec_effect hu with ⟨e, rfl⟩ | hu
    · exact ⟨rfl, rfl, rfl, rfl, rfl, rfl⟩
    · exact hu.programKept

/-! ### How a register changes -/

theorem State.writeReg_le (s : State) (d : Reg) (v : Binary64) :
    (s.writeReg d v).reg d ≤ s.W.maxValue := by
  rw [State.writeReg_reg, if_pos rfl]
  exact Nat.le_sub_one_of_lt (maskNum_lt s.W v)

theorem State.reg_le_of_writeReg {d r : Reg} {v : Binary64}
    (hne : (s.writeReg d v).reg r ≠ s.reg r) : (s.writeReg d v).reg r ≤ s.W.maxValue := by
  by_cases hd : r = d
  · exact hd ▸ s.writeReg_le d v
  · exact absurd ((State.writeReg_reg s d r v).trans (if_neg hd)) hne

theorem State.eq_sp_of_setSP {n : Nat} {r : Reg} (hne : (s.setSP n).reg r ≠ s.reg r) : r = .sp := by
  rw [State.setSP, State.setReg_reg] at hne
  by_contra h
  exact hne (if_neg h)

/-- SP moved by one, unmasked, within its bounds (10_state.md R25): up by POP and RET, down by PUSH,
DUP and CALL. -/
def SpMoved (s : State) (k : Shape) (t : State) : Prop :=
  (t.sp = s.sp + 1 ∧ t.sp ≤ s.memLen ∧ (k = .pop ∨ k = .ret)) ∨
  (t.sp + 1 = s.sp ∧ t.sp < s.memLen ∧ (k = .push ∨ k = .dup ∨ k = .call))

theorem SpMoved.congr (h : SpMoved s k t) (hu : u.sp = t.sp) : SpMoved s k u := by
  unfold SpMoved
  rwa [hu]

theorem State.spMoved_push {a : Nat} {v : Binary64} (hpos : 0 < s.sp) (hlt : s.sp - 1 < s.memLen)
    (hk : k = .push ∨ k = .dup ∨ k = .call) :
    SpMoved s k ((s.putCell a v).setSP (s.sp - 1)) := by
  refine .inr ⟨?_, ?_, hk⟩ <;> rw [State.sp_push]
  · omega
  · exact hlt

theorem State.spMoved_up (hlegal : s.params.Legal) (hlt : s.sp < s.memLen)
    (hk : k = .pop ∨ k = .ret) : SpMoved s k (s.setSP (s.sp + 1)) := by
  obtain ⟨-, hmemLen, -⟩ := hlegal
  have hsp : (s.setSP (s.sp + 1)).sp = s.sp + 1 :=
    (State.setSP_reg s _ (lt_of_le_of_lt hlt hmemLen) .sp).trans (if_pos rfl)
  refine .inl ⟨hsp, ?_, hk⟩
  rw [hsp]
  exact hlt

/-- A register that an effect changes is written masked, or it is SP and moves by one. -/
theorem Effect.reg_changed (hlegal : s.params.Legal) (h : Effect s k t) {r : Reg}
    (hne : t.reg r ≠ s.reg r) : t.reg r ≤ s.W.maxValue ∨ r = .sp ∧ SpMoved s k t := by
  cases h with
  | arith d v => exact .inl (State.reg_le_of_writeReg (s := s.updateFlags v) hne)
  | movReg d v => exact .inl (State.reg_le_of_writeReg hne)
  | load d a ha => exact .inl (State.reg_le_of_writeReg hne)
  | push v o hpos hlt hv =>
    exact .inr ⟨State.eq_sp_of_setSP (s := s.putCell _ v) hne,
      State.spMoved_push hpos hlt (.inl rfl)⟩
  | dup hpos hlt =>
    exact .inr ⟨State.eq_sp_of_setSP (s := s.putCell _ _) hne,
      State.spMoved_push hpos (by omega) (.inr (.inl rfl))⟩
  | call id target hpos hlt ht =>
    exact .inr ⟨State.eq_sp_of_setSP (s := s.putCell _ _) hne,
      State.spMoved_push hpos hlt (.inr (.inr rfl))⟩
  | ret n hlt hn hle =>
    exact .inr ⟨State.eq_sp_of_setSP hne, State.spMoved_up hlegal hlt (.inr rfl)⟩
  | pop d hlt =>
    by_cases hd : r = d
    · exact .inl (hd ▸ State.writeReg_le _ d _)
    · have hkept := (State.writeReg_reg (s.setSP (s.sp + 1)) d r (s.cell s.sp)).trans (if_neg hd)
      obtain rfl : r = .sp := State.eq_sp_of_setSP fun h => hne (hkept.trans h)
      exact .inr ⟨rfl, (State.spMoved_up hlegal hlt (.inl rfl)).congr hkept⟩
  | _ => exact absurd rfl hne

theorem pop_or_ret_of_shapeOf {i : Instr} (h : shapeOf i = .pop ∨ shapeOf i = .ret) :
    (∃ o, i = .pop o) ∨ ∃ o, i = .ret o := by
  cases i with
  | pop o => exact .inl ⟨o, rfl⟩
  | ret o => exact .inr ⟨o, rfl⟩
  | _ => simp [shapeOf] at h

theorem push_or_dup_or_call_of_shapeOf {i : Instr}
    (h : shapeOf i = .push ∨ shapeOf i = .dup ∨ shapeOf i = .call) :
    (∃ o, i = .push o) ∨ (∃ o, i = .dup o) ∨ ∃ o, i = .call o := by
  cases i with
  | push o => exact .inl ⟨o, rfl⟩
  | dup o => exact .inr (.inl ⟨o, rfl⟩)
  | call o => exact .inr (.inr ⟨o, rfl⟩)
  | _ => simp [shapeOf] at h

/-- Settles O60: an error changes no register, an effect only by a masked write or a move of SP. -/
theorem changedRegistersAreMasked : Obligations.ChangedRegistersAreMasked := by
  intro i s t r hinv h hne
  rcases exec_effect h with ⟨e, rfl⟩ | h
  · exact absurd rfl hne
  · rcases h.reg_changed hinv.params hne with hle | ⟨rfl, ⟨hsp, hle, hk⟩ | ⟨hsp, hlt, hk⟩⟩
    · exact .inl hle
    · exact .inr ⟨rfl, .inl ⟨hsp, hle, pop_or_ret_of_shapeOf hk⟩⟩
    · exact .inr ⟨rfl, .inr ⟨hsp, hlt, push_or_dup_or_call_of_shapeOf hk⟩⟩

end Sys2Proof.Machine
end

section
/-! The statement word of an instruction line reads back: the descriptors of 30_encoding.md R109 to
R111, then the opcode. Then a text: what its lines are parsed to, where its label ids lead, and what
the load installs. -/

namespace Sys2Proof

@[simp] theorem decodeBase_bits (b : LitBase) : decodeBase b.bits = some b := by cases b <;> rfl

theorem extractLsb'_setWidth {n m : Nat} (h : n ≤ m) (x : BitVec n) :
    (x.setWidth m).extractLsb' 0 n = x := by
  rw [← BitVec.setWidth_eq_extractLsb' h, BitVec.setWidth_setWidth_of_le x h, BitVec.setWidth_eq]

@[simp] theorem decodePart_payload (p : AddrPart) :
    decodePart p.kindBit p.baseBits p.payload = some p := by
  cases p with
  | reg n => exact congrArg (some ∘ AddrPart.reg) (extractLsb'_setWidth (by omega) n)
  | imm p b => simp [decodePart, AddrPart.kindBit, AddrPart.baseBits, AddrPart.payload]

theorem decodeOperand_fields (o : Operand) : decodeOperand o.fields = o := by
  cases o with
  | none => rfl
  | reg n => exact congrArg Operand.reg (extractLsb'_setWidth (by omega) n)
  | imm p b => simp [decodeOperand, Operand.fields]
  | mem1 a => simp [decodeOperand, Operand.fields]
  | mem2 a b => simp [decodeOperand, Operand.fields]
  | vreg n => exact congrArg Operand.vreg (extractLsb'_setWidth (by omega) n)
  | label id => exact congrArg Operand.label (extractLsb'_setWidth (by omega) id)
  | bad => rfl

theorem decodeShort_shortFields {o : Operand} (h : o.short = true) :
    decodeShort o.shortFields.1 o.shortFields.2 = o := by
  cases o with
  | none => rfl
  | reg n => rfl
  | vreg n => rfl
  | bad => rfl
  | _ => cases h

/-- An INSN statement word gives its operands back when operand 2 fits the short descriptor. -/
theorem encodeInsn_operands (opc : BitVec 8) {o : Operands} (h : o.op2.short = true) :
    (encodeInsn opc o).operands = o := by
  have h0 : decodeOperand o.op0.fields = o.op0 := decodeOperand_fields o.op0
  have h1 : decodeOperand o.op1.fields = o.op1 := decodeOperand_fields o.op1
  simp only [StmtWord.operands, encodeInsn, insnHeader_nops, insnHeader_cls0, insnHeader_ka0,
    insnHeader_ba0, insnHeader_kb0, insnHeader_bb0, insnHeader_cls1, insnHeader_ka1, insnHeader_ba1,
    insnHeader_kb1, insnHeader_bb1, insnHeader_cls2, insnHeader_n2, decodeShort_shortFields h]
  exact congrArg₂ (fun a b => (⟨o.nops, a, b, o.op2⟩ : Operands)) h0 h1

theorem decode_encodeInsn (opc : BitVec 8) {o : Operands} (h : o.op2.short = true) :
    decode (encodeInsn opc o) =
      ((instrOfOpc opc o).elim (.error (.unknownInstruction opc)) .ok) := by
  have hkind : (encodeInsn opc o).kind.toNat = 3 := by rw [encodeInsn_kind]; rfl
  simp only [decode, hkind, encodeInsn_opc, encodeInsn_operands opc h]
  cases instrOfOpc opc o <;> rfl

theorem decode_encode_label (id : BitVec 16) : decode (encode (.label id)) = .ok (.label id) :=
  congrArg (fun x => Except.ok (Instr.label x)) (extractLsb'_setWidth (by omega) id)

end Sys2Proof

namespace Sys2Proof.Machine

/-! ### The mnemonics -/

/-- The loader's opcode of a mnemonic is the opcode of its instruction, and a jump's when its operand
is a label reference (30_encoding.md R102, R130). -/
theorem mnemonicTable_row {p : String × (Operands → Instr)} (hp : p ∈ mnemonicTable) :
    ∃ opc, mnemonics.lookup p.1.toList = some opc ∧ (∀ o, instrOfOpc opc o = some (p.2 o)) ∧
      (p.1 ∈ labelMnemonics → isJumpOpc opc = true) := by
  simp only [mnemonicTable, List.mem_cons, List.not_mem_nil, or_false] at hp
  rcases hp with rfl | rfl | rfl | rfl | rfl | rfl | rfl | rfl | rfl | rfl | rfl | rfl | rfl | rfl |
    rfl | rfl | rfl | rfl | rfl | rfl | rfl | rfl | rfl | rfl | rfl | rfl | rfl | rfl | rfl | rfl |
    rfl | rfl | rfl | rfl | rfl | rfl <;> exact ⟨_, rfl, fun _ => rfl, by decide⟩

/-- The loader knows the 36 mnemonics of the table and no other. -/
theorem mnemonics_names : mnemonics.map Prod.fst = mnemonicTable.map fun p => p.1.toList := rfl

theorem opcodeOf_of_mem {p : String × (Operands → Instr)} (hp : p ∈ mnemonicTable) {t : List Char}
    (ht : upper t = p.1.toList) :
    (∀ o, instrOfOpc (opcodeOf t) o = some (p.2 o)) ∧
      (p.1 ∈ labelMnemonics → isJumpOpc (opcodeOf t) = true) := by
  obtain ⟨opc, hlookup, hrow⟩ := mnemonicTable_row hp
  rwa [opcodeOf, ht, hlookup]

theorem opcodeOf_of_not_mem {t : List Char} (h : ∀ p ∈ mnemonicTable, upper t ≠ p.1.toList) :
    opcodeOf t = 0xFF := by
  have hlookup : mnemonics.lookup (upper t) = none := by
    rw [List.lookup_eq_none_iff]
    intro q hq
    have hname : q.1 ∈ mnemonicTable.map fun p => p.1.toList :=
      mnemonics_names ▸ List.mem_map_of_mem hq
    obtain ⟨p, hp, hpq⟩ := List.mem_map.1 hname
    exact bne_iff_ne.2 (hpq ▸ h p hp)
  rw [opcodeOf, hlookup]
  rfl

/-! ### The kind of a line -/

section

variable {line name : List Char}

theorem isEndLine_nil : isEndLine [] = false := by decide

theorem parseLine_blank (h : statementOf line = []) : parseLine line = .blank := by
  simp [parseLine, h]

theorem parseLine_halt (h : isEndLine (statementOf line) = true) :
    parseLine line = .halt (definedLabel (statementOf line)) := by
  have hne : statementOf line ≠ [] := fun h0 => by simp [h0, isEndLine_nil] at h
  simp [parseLine, h, hne]

theorem parseLine_label (hend : isEndLine (statementOf line) = false)
    (h : definedLabel (statementOf line) = some name) : parseLine line = .label name := by
  have hne : statementOf line ≠ [] := fun h0 => by simp [h0, definedLabel] at h
  simp [parseLine, h, hend, hne]

theorem parseLine_insn (hne : statementOf line ≠ []) (hend : isEndLine (statementOf line) = false)
    (h : definedLabel (statementOf line) = none) :
    parseLine line =
      .insn (opcodeOf (opcodeText (statementOf line))) (operandTokens (statementOf line)) := by
  simp [parseLine, h, hend, hne]

end

/-! ### The label ids of a text -/

section

variable {text line name : List Char}

theorem mem_labelNames (hline : line ∈ textLines text)
    (h : (parseLine line).mentions = some name) : name ∈ labelNames (parseText text) :=
  List.mem_eraseDups.2 (List.mem_filterMap.2 ⟨_, List.mem_map_of_mem hline, h⟩)

theorem labelId_toNat {names : List (List Char)} (hname : name ∈ names)
    (hcap : names.length ≤ 2 ^ 16) : (labelId names name).toNat = names.idxOf name := by
  rw [labelId, BitVec.toNat_ofNat, Nat.mod_eq_of_lt]
  exact lt_of_lt_of_le (List.idxOf_lt_length_of_mem hname) hcap

/-- The id of a name leads to the line that defines it (10_state.md R41). -/
theorem idStandsFor_labelId (hdup : duplicateLine [] (parseText text) 1 = none)
    (hcap : (labelNames (parseText text)).length ≤ 2 ^ 16)
    (hname : name ∈ labelNames (parseText text)) :
    IdStandsFor text (labelTable (parseText text) (labelNames (parseText text)) 0)
      (labelId (labelNames (parseText text)) name) name := by
  have htarget := labelTarget_labelTable (parseText text) (labelNames (parseText text)) 0
    ((labelNames (parseText text)).idxOf name)
  rw [Nat.zero_add, List.getElem?_idxOf hname, Option.bind_some] at htarget
  unfold IdStandsFor
  rw [labelId_toNat hname hcap, htarget]
  refine ⟨fun j line hj hdef => ?_, fun hnone => ?_⟩
  · have hparsed : (parseText text)[j]? = some (parseLine line) := by
      rw [parseText, List.getElem?_map, hj, Option.map_some]
    have hfound := definitionLine_eq_some 0 hdup hparsed ((parseLine_defines line).trans hdef)
    rwa [Nat.zero_add] at hfound
  · refine definitionLine_eq_none 0 fun l hl => ?_
    obtain ⟨line, hline, rfl⟩ := List.mem_map.1 hl
    rw [parseLine_defines]
    exact hnone line hline

/-! ### The word of a line -/

theorem operandsAt_nops (names : List (List Char)) (opc : BitVec 8) (tokens : List (List Char)) :
    (operandsAt names opc tokens).nops.toNat = min tokens.length 15 :=
  Nat.mod_eq_of_lt (show min tokens.length 15 < 2 ^ 4 by omega)

theorem operandsAt_op0_of_jump (names : List (List Char)) {opc : BitVec 8}
    {tokens : List (List Char)} (hjump : isJumpOpc opc = true) (hname : tokens[0]? = some name) :
    (operandsAt names opc tokens).op0 = .label (labelId names name) := by
  simp [operandsAt, operandAt, hname, hjump]

theorem lineBecomes_wordOfLine (hdup : duplicateLine [] (parseText text) 1 = none)
    (hcap : (labelNames (parseText text)).length ≤ 2 ^ 16) (hline : line ∈ textLines text) :
    LineBecomes text (labelTable (parseText text) (labelNames (parseText text)) 0)
      (statementOf line) (wordOfLine (labelNames (parseText text)) (parseLine line)) := by
  refine ⟨fun hblank => ?_, fun hend => ?_, fun name hend hdef => ?_, fun hne hend hdef => ?_⟩
  · rw [parseLine_blank hblank]
    rfl
  · rw [parseLine_halt hend]
    rfl
  · have hparse := parseLine_label hend hdef
    have hname := mem_labelNames hline (hparse ▸ rfl : (parseLine line).mentions = some name)
    rw [hparse]
    exact ⟨_, decode_encode_label _, idStandsFor_labelId hdup hcap hname⟩
  · have hparse := parseLine_insn hne hend hdef
    rw [hparse, wordOfLine, decode_encodeInsn _ (operandsAt_short _ _ _)]
    refine ⟨fun p hp htext => ?_, fun hnone => ?_⟩
    · obtain ⟨hinstr, hjump⟩ := opcodeOf_of_mem hp htext
      rw [hinstr]
      refine ⟨_, rfl, operandsAt_nops _ _ _, rfl, fun hlabel name hname => ?_⟩
      have hmentions : (parseLine line).mentions = some name := by
        rw [hparse, SrcLine.mentions, if_pos (hjump hlabel), hname]
      exact ⟨_, operandsAt_op0_of_jump _ (hjump hlabel) hname,
        idStandsFor_labelId hdup hcap (mem_labelNames hline hmentions)⟩
    · rw [opcodeOf_of_not_mem hnone]
      exact ⟨_, rfl⟩

end

/-! ### The load -/

variable {s : State} {text : List Char}

theorem State.loadProgram_empty (h : text.all isSpace = true) : s.loadProgram text = .next s :=
  if_pos h

theorem State.loadProgram_duplicate {k : Nat}
    (h : duplicateLine [] (parseText text) 1 = some k) : s.loadProgram text = .next s := by
  unfold State.loadProgram
  split
  · rfl
  · simp only [h]

theorem State.loadProgram_install (htext : text.all isSpace = false)
    (hdup : duplicateLine [] (parseText text) 1 = none)
    (hlines : (parseText text).length ≤ s.params.progMax)
    (hnames : (labelNames (parseText text)).length ≤ s.params.nLabels) :
    s.loadProgram text = .next (s.installText text) := by
  unfold State.loadProgram
  simp only [htext, hdup, Bool.false_eq_true, if_false, Nat.not_lt.2 hlines, Nat.not_lt.2 hnames]
  rfl

theorem State.installText_prog (s : State) {i : Nat} {line : List Char}
    (h : (textLines text)[i]? = some line) :
    (s.installText text).prog[i]? =
      some (wordOfLine (labelNames (parseText text)) (parseLine line)) := by
  change ((parseText text).map _)[i]? = _
  rw [parseText, List.getElem?_map, List.getElem?_map, h]
  rfl

/-- Settles O57: an installed text has one word for each line, and the word of a line decodes to what
the line spells. -/
theorem loadInstallsOneStatementPerLine : Obligations.LoadInstallsOneStatementPerLine := by
  intro s text
  refine ⟨State.loadProgram_empty, fun k => State.loadProgram_duplicate,
    fun htext hdup hlines hnames => ?_⟩
  rw [← parseText_length] at hlines ⊢
  refine ⟨_, State.loadProgram_install htext hdup hlines hnames, List.length_map _, rfl,
    fun hlegal i line hi => ?_⟩
  obtain ⟨-, -, -, hlabels⟩ := hlegal
  exact ⟨_, s.installText_prog hi,
    lineBecomes_wordOfLine hdup (le_trans hnames hlabels) (List.mem_of_getElem? hi)⟩

end Sys2Proof.Machine
end

section
/-! Data movement between the registers and memory: what the accesses answer in range and out of it,
what a vector store leaves in its cells, and what is left of each instruction once its operands have
resolved. Completion and errors are both read off from that. -/

namespace Sys2Proof

theorem Binary64.isNaN_iff {v : Binary64} : v.isNaN = true ↔ v = .nan := by
  cases v <;> simp [Binary64.isNaN]

namespace Machine

/-! ### Accesses in range and out of range -/

section

variable {s : State} {a : Nat}

theorem State.memRead_of_lt (h : a < s.memLen) : s.memRead a = .ok (s.cell a) := if_pos h

theorem State.memRead_of_le (h : s.memLen ≤ a) : s.memRead a = .error .invalidAddress :=
  if_neg (Nat.not_lt.2 h)

theorem State.memWrite_of_lt (v : Binary64) (h : a < s.memLen) :
    s.memWrite a v = .ok (s.putCell a v) := if_pos h

theorem State.memWrite_of_le (v : Binary64) (h : s.memLen ≤ a) :
    s.memWrite a v = .error .invalidAddress := if_neg (Nat.not_lt.2 h)

/-- The four cells that a vector load reads (45_simd.md R275). -/
def State.lanesAt (s : State) (a : Nat) : Lanes :=
  ⟨s.cell a, s.cell (a + 1), s.cell (a + 2), s.cell (a + 3)⟩

theorem State.memRead4_of_lt (h : a + 3 < s.memLen) : s.memRead4 a = .ok (s.lanesAt a) := if_pos h

theorem State.memRead4_of_le (h : s.memLen ≤ a + 3) : s.memRead4 a = .error .invalidAddress :=
  if_neg (Nat.not_lt.2 h)

theorem State.memWrite4_of_lt (l : Lanes) (h : a + 3 < s.memLen) :
    s.memWrite4 a l = .ok (s.putLanes a l) := if_pos h

theorem State.memWrite4_of_le (l : Lanes) (h : s.memLen ≤ a + 3) :
    s.memWrite4 a l = .error .invalidAddress := if_neg (Nat.not_lt.2 h)

theorem State.lanesAt_any_isNaN :
    (s.lanesAt a).any Binary64.isNaN = true ↔ ∃ k, k < 4 ∧ s.cell (a + k) = .nan := by
  simp only [Lanes.any, State.lanesAt, Bool.or_eq_true, Binary64.isNaN_iff]
  constructor
  · rintro (((h | h) | h) | h)
    · exact ⟨0, by omega, h⟩
    · exact ⟨1, by omega, h⟩
    · exact ⟨2, by omega, h⟩
    · exact ⟨3, by omega, h⟩
  · rintro ⟨k, hk, h⟩
    interval_cases k
    · exact .inl (.inl (.inl h))
    · exact .inl (.inl (.inr h))
    · exact .inl (.inr h)
    · exact .inr h

/-- The four writes of a vector store go to different cells. -/
theorem State.putLanes_lanesAt (hwf : Memory.wf s.mem) (l : Lanes) :
    (s.putLanes a l).lanesAt a = l := by
  have hwf1 := State.putCell_wf hwf a l.l0
  have hwf2 := State.putCell_wf hwf1 (a + 1) l.l1
  have hwf3 := State.putCell_wf hwf2 (a + 2) l.l2
  have h0 : (s.putLanes a l).cell a = l.l0 := by
    rw [State.putLanes, State.putCell_cell_other _ _ (by omega),
      State.putCell_cell_other _ _ (by omega), State.putCell_cell_other _ _ (by omega),
      State.putCell_cell_same hwf]
  have h1 : (s.putLanes a l).cell (a + 1) = l.l1 := by
    rw [State.putLanes, State.putCell_cell_other _ _ (by omega),
      State.putCell_cell_other _ _ (by omega), State.putCell_cell_same hwf1]
  have h2 : (s.putLanes a l).cell (a + 2) = l.l2 := by
    rw [State.putLanes, State.putCell_cell_other _ _ (by omega), State.putCell_cell_same hwf2]
  have h3 : (s.putLanes a l).cell (a + 3) = l.l3 := State.putCell_cell_same hwf3 _ _
  simp only [State.lanesAt, h0, h1, h2, h3]

end

namespace FrameBut

variable (s : State)

theorem setVec (q : VReg) (l : Lanes) : FrameBut [] [q] [] s (s.setVec q l) := by
  refine ⟨fun _ _ => rfl, fun r hr => ?_, fun _ _ => rfl, ⟨rfl, rfl, rfl⟩, rfl,
    by simp [ControlKept]⟩
  rw [State.setVec_vec, if_neg (mt List.mem_singleton.2 hr)]

theorem putLanes (a : Nat) (l : Lanes) :
    FrameBut [] [] [a, a + 1, a + 2, a + 3] s (s.putLanes a l) :=
  (((putCell s a l.l0).trans (putCell _ (a + 1) l.l1)).trans (putCell _ (a + 2) l.l2)).trans
    (putCell _ (a + 3) l.l3)

end FrameBut

/-! ### Instructions with their operands resolved -/

theorem vregOf_vreg {n : BitVec 4} {q : VReg} (hq : vregOfNumber n = some q) :
    vregOf (.vreg n) = .ok q := vregOf_eq_ok.2 ⟨n, rfl, hq⟩

section

variable {s : State} {n : BitVec 4} {a : Nat} {dst src addr o2 : Operand} {v : Binary64}

theorem State.valAny_mem (ha : s.ea src = .ok a) : s.valAny src = s.memRead a := by
  rw [State.valAny, if_pos (State.ea_isMem ha), ha, ok_bind]

/-- MOV to memory checks the range before it looks at the source (42_data_movement.md R200). -/
theorem exec_mov_mem_resolved (ha : s.ea dst = .ok a) :
    exec (.mov ⟨2, dst, src, o2⟩) s = attempt s (do
      require (decide (a < s.memLen)) .invalidAddress
      let v ← s.valAny src
      let t ← s.memWrite a v
      .ok t.advance) := by
  refine congrArg (attempt s) ?_
  change (if dst.isMem then movToMemory ⟨2, dst, src, o2⟩ s else _) = _
  rw [if_pos (State.ea_isMem ha), movToMemory, ha, ok_bind]

theorem exec_load_resolved {d : Reg} (hd : regOfNumber n = some d) (ha : s.ea addr = .ok a) :
    exec (.load ⟨2, .reg n, addr, o2⟩) s = attempt s (do
      let v ← s.memRead a
      require (!v.isNaN) .invalidMemoryValue
      .ok (s.writeReg d v).advance) := by
  refine congrArg (attempt s) ?_
  change (regOf (.reg n) >>= fun d => s.ea addr >>= _) = _
  rw [regOf_reg hd, ok_bind, ha, ok_bind]

theorem exec_store_resolved (hv : s.valRl src = .ok v) (ha : s.ea addr = .ok a) :
    exec (.store ⟨2, src, addr, o2⟩) s = attempt s (do
      let t ← s.memWrite a v
      .ok t.advance) := by
  refine congrArg (attempt s) ?_
  change (s.valRl src >>= fun v => s.ea addr >>= _) = _
  rw [hv, ok_bind, ha, ok_bind]

theorem exec_vload_resolved {q : VReg} (hq : vregOfNumber n = some q) (ha : s.ea addr = .ok a) :
    exec (.vload ⟨2, .vreg n, addr, o2⟩) s = attempt s (do
      let l ← s.memRead4 a
      require (!l.any Binary64.isNaN) .invalidMemoryValue
      .ok (s.setVec q l).advance) := by
  refine congrArg (attempt s) ?_
  change (vregOf (.vreg n) >>= fun q => s.ea addr >>= _) = _
  rw [vregOf_vreg hq, ok_bind, ha, ok_bind]

theorem exec_vstore_resolved {q : VReg} (hq : vregOfNumber n = some q) (ha : s.ea addr = .ok a) :
    exec (.vstore ⟨2, .vreg n, addr, o2⟩) s = attempt s (do
      let t ← s.memWrite4 a (s.vec q)
      .ok t.advance) := by
  refine congrArg (attempt s) ?_
  change (vregOf (.vreg n) >>= fun q => s.ea addr >>= _) = _
  rw [vregOf_vreg hq, ok_bind, ha, ok_bind]

theorem exec_mov_mem_of_le (ha : s.ea dst = .ok a) (hle : s.memLen ≤ a) :
    exec (.mov ⟨2, dst, src, o2⟩) s = .next (s.enterError .invalidAddress) := by
  rw [exec_mov_mem_resolved ha]
  simp [Nat.not_lt.2 hle]

/-- An unreadable source of MOV is found after a destination in range (42_data_movement.md R201). -/
theorem exec_mov_mem_of_source_error {e : Err} (ha : s.ea dst = .ok a) (hlt : a < s.memLen)
    (hsrc : s.valAny src = .error e) :
    exec (.mov ⟨2, dst, src, o2⟩) s = .next (s.enterError e) := by
  rw [exec_mov_mem_resolved ha]
  simp [hlt, hsrc]

theorem exec_mov_reg_of_source_error {e : Err} {d : Reg} (hd : regOfNumber n = some d)
    (hsrc : s.valAny src = .error e) :
    exec (.mov ⟨2, .reg n, src, o2⟩) s = .next (s.enterError e) := by
  change attempt s (movToRegister ⟨2, .reg n, src, o2⟩ s) = _
  rw [movToRegister, regOf_reg hd, ok_bind, hsrc, error_bind, attempt_error]

end

/-! ### Completion -/

/-- Settles O32: the instruction is one unmasked write of a cell. -/
theorem movToMemoryStoresTheSourceWhole : Obligations.MovToMemoryStoresTheSourceWhole := by
  intro s dst src o2 a v hwf ha hlt hv
  refine ⟨(s.putCell a v).advance, ?_, State.putCell_cell_same hwf a v, rfl,
    (FrameBut.putCell s a v).trans (.advance _)⟩
  rw [exec_mov_mem_resolved ha]
  simp [hlt, hv, State.memWrite_of_lt v hlt]

/-- Settles O33: the cell passes the NaN check and goes masked to the register. -/
theorem loadMasksTheCell : Obligations.LoadMasksTheCell := by
  intro s n d addr o2 a hd ha hlt hcell
  have hnum : (s.cell a).isNaN = false := Bool.eq_false_iff.2 (mt Binary64.isNaN_iff.1 hcell)
  refine ⟨(s.writeReg d (s.cell a)).advance, ?_, (State.writeReg_reg s d d _).trans (if_pos rfl),
    rfl, (FrameBut.writeReg s d _).trans (.advance _)⟩
  rw [exec_load_resolved hd ha]
  simp [State.memRead_of_lt hlt, hnum]

/-- Settles O34: the instruction is one unmasked write of a cell. -/
theorem storeWritesTheValueWhole : Obligations.StoreWritesTheValueWhole := by
  intro s src addr o2 a v hwf hv ha hlt
  refine ⟨(s.putCell a v).advance, ?_, State.putCell_cell_same hwf a v, rfl,
    (FrameBut.putCell s a v).trans (.advance _)⟩
  rw [exec_store_resolved hv ha]
  simp [State.memWrite_of_lt v hlt]

/-- Settles O52: the four cells read back as the four lanes. -/
theorem vstoreCopiesFourLanes : Obligations.VstoreCopiesFourLanes := by
  intro s n q addr o2 a hwf hq ha hlt
  obtain ⟨h0, h1, h2, h3⟩ := Lanes.mk.inj (State.putLanes_lanesAt (a := a) hwf (s.vec q))
  refine ⟨(s.putLanes a (s.vec q)).advance, ?_, h0, h1, h2, h3, rfl,
    (FrameBut.putLanes s a _).trans (.advance _)⟩
  rw [exec_vstore_resolved hq ha]
  simp [State.memWrite4_of_lt _ hlt]

/-- Settles O51: the four cells pass the NaN check and go to the register. -/
theorem vloadCopiesFourCells : Obligations.VloadCopiesFourCells := by
  intro s n q addr o2 a hq ha hlt hcells
  have hnum : (s.lanesAt a).any Binary64.isNaN = false := Bool.eq_false_iff.2 fun h =>
    have ⟨k, hk, hnan⟩ := State.lanesAt_any_isNaN.1 h
    hcells k hk hnan
  refine ⟨(s.setVec q (s.lanesAt a)).advance, ?_, (State.setVec_vec s q q _).trans (if_pos rfl),
    rfl, (FrameBut.setVec s q _).trans (.advance _)⟩
  rw [exec_vload_resolved hq ha]
  simp [State.memRead4_of_lt hlt, hnum]

/-! ### Errors -/

/-- Settles O35: a check that fails ends the instruction before it writes anything. -/
theorem memoryErrorsLeaveEverything : Obligations.MemoryErrorsLeaveEverything := by
  intro s n m d q src other addr o2 a v hd hq hv ha
  refine ⟨fun hle => ?_, fun hle => ⟨?_, ?_⟩, fun hlt hnan => ?_, fun hlt hnan => ?_⟩
  · have hsrc : s.valAny addr = .error .invalidAddress :=
      (State.valAny_mem ha).trans (State.memRead_of_le hle)
    refine ⟨exec_mov_mem_of_le ha hle, exec_mov_reg_of_source_error hd hsrc,
      fun x hx hlt => exec_mov_mem_of_source_error hx hlt hsrc, ?_, ?_⟩
    · rw [exec_load_resolved hd ha]
      simp [State.memRead_of_le hle]
    · rw [exec_store_resolved hv ha]
      simp [State.memWrite_of_le v hle]
  · rw [exec_vload_resolved hq ha]
    simp [State.memRead4_of_le hle]
  · rw [exec_vstore_resolved hq ha]
    simp [State.memWrite4_of_le _ hle]
  · rw [exec_load_resolved hd ha]
    simp [State.memRead_of_lt hlt, Binary64.isNaN_iff.2 hnan]
  · rw [exec_vload_resolved hq ha]
    simp [State.memRead4_of_lt hlt, State.lanesAt_any_isNaN.2 hnan]

end Machine

end Sys2Proof
end

section
/-! The decoder: an instruction is read back from its own word, the reserved bits of the header are in
none of the fields, and the opcode map lists 36 numbers. -/

namespace Sys2Proof

/-! ### The opcode map and the encoder -/

/-- The word of an instruction with operands is an INSN word, under the opcode that selects it
(30_encoding.md R130). -/
theorem encode_of_operands {i : Instr} {o : Operands} (h : i.operands? = some o) :
    ∃ opc, encode i = encodeInsn opc o ∧ instrOfOpc opc o = some i := by
  cases i with
  | blank => cases h
  | label id => cases h
  | halt => cases h
  | _ => cases h; exact ⟨_, rfl, rfl⟩

theorem operands?_eq_none {i : Instr} (h : i.operands? = none) :
    i = .blank ∨ (∃ id, i = .label id) ∨ i = .halt := by
  cases i with
  | blank => exact .inl rfl
  | label id => exact .inr (.inl ⟨id, rfl⟩)
  | halt => exact .inr (.inr rfl)
  | _ => cases h

/-- Settles O1: an instruction with operands is read back from an INSN word by its opcode and its
descriptors, a statement kind from the kind field. -/
theorem decodeOfEncodeIsTheInstruction : Obligations.DecodeOfEncodeIsTheInstruction := by
  intro i hwf
  cases hops : i.operands? with
  | some o =>
    obtain ⟨opc, hword, hinstr⟩ := encode_of_operands hops
    have hshort : o.op2.short = true := by simpa only [Instr.WellFormed, hops] using hwf
    rw [hword, decode_encodeInsn opc hshort, hinstr]
    rfl
  | none =>
    rcases operands?_eq_none hops with rfl | ⟨id, rfl⟩ | rfl
    · rfl
    · exact decode_encode_label id
    · rfl

/-! ### The reserved bits -/

/-- The word with the header bits 63:42 replaced. -/
def StmtWord.withReserved (w : StmtWord) (v : BitVec 22) : StmtWord :=
  { w with w0 := (v ++ w.w0.extractLsb' 0 42 : BitVec (22 + 42)) }

/-- A field below bit 42 does not read them. -/
theorem StmtWord.withReserved_field (w : StmtWord) (v : BitVec 22) {start len : Nat}
    (h : start + len ≤ 42) :
    (w.withReserved v).w0.extractLsb' start len = w.w0.extractLsb' start len := by
  calc (w.withReserved v).w0.extractLsb' start len
      = (w.w0.extractLsb' 0 42).extractLsb' start len :=
        BitVec.extractLsb'_append_eq_of_add_le h
    _ = w.w0.extractLsb' start len := BitVec.extractLsb'_extractLsb'_of_le h

theorem StmtWord.withReserved_kind (w : StmtWord) (v : BitVec 22) :
    (w.withReserved v).kind = w.kind := w.withReserved_field v (by decide)

theorem StmtWord.withReserved_opc (w : StmtWord) (v : BitVec 22) :
    (w.withReserved v).opc = w.opc := w.withReserved_field v (by decide)

/-- The highest field, the number of operand 2, ends at bit 41 (30_encoding.md R106). -/
theorem StmtWord.withReserved_operands (w : StmtWord) (v : BitVec 22) :
    (w.withReserved v).operands = w.operands := by
  simp (disch := decide) only [StmtWord.operands, StmtWord.withReserved_field]
  rfl

/-- Settles O2: kind, opcode and operands are fields below bit 42, and the label id is not in the
header. -/
theorem reservedHeaderBitsAreIgnored : Obligations.ReservedHeaderBitsAreIgnored := by
  intro w v
  change decode (w.withReserved v) = decode w
  have hid : (w.withReserved v).w1 = w.w1 := rfl
  simp only [decode, w.withReserved_kind, w.withReserved_opc, w.withReserved_operands, hid]

/-! ### What is no instruction -/

/-- The 36 numbers of the opcode map (30_encoding.md R130). -/
def listedOpcodes : List Nat :=
  [0x01, 0x02, 0x03, 0x04, 0x05, 0x06, 0x07, 0x08, 0x09, 0x0A, 0x0B, 0x10, 0x11, 0x12, 0x20, 0x21,
   0x22, 0x23, 0x24, 0x30, 0x31, 0x32, 0x33, 0x34, 0x35, 0x36, 0x37, 0x38, 0x39, 0x3A, 0x40, 0x41,
   0x42, 0x43, 0x44, 0x50]

theorem instrOfOpc_eq_none_iff {opc : BitVec 8} {o : Operands} :
    instrOfOpc opc o = none ↔ opc.toNat ∉ listedOpcodes := by
  unfold instrOfOpc listedOpcodes
  split <;> simp_all

/-- The opcode map selects instructions with operands only. -/
theorem operands?_of_instrOfOpc {opc : BitVec 8} {o : Operands} {i : Instr}
    (h : instrOfOpc opc o = some i) : i.operands? = some o := by
  unfold instrOfOpc at h
  split at h <;> cases h <;> rfl

theorem StmtWord.kind_cases (w : StmtWord) :
    w.kind = 0#2 ∨ w.kind = 1#2 ∨ w.kind = 2#2 ∨ w.kind = 3#2 := by
  generalize w.kind = k
  revert k
  decide

/-- What a word decodes to, kind by kind (30_encoding.md R107). -/
theorem decode_cases (w : StmtWord) :
    w.kind = 0#2 ∧ decode w = .ok .blank ∨
    w.kind = 1#2 ∧ decode w = .ok (.label (w.w1.extractLsb' 0 16)) ∨
    w.kind = 2#2 ∧ decode w = .ok .halt ∨
    w.kind = 3#2 ∧ decode w =
      (instrOfOpc w.opc w.operands).elim (.error (.unknownInstruction w.opc)) .ok := by
  rcases w.kind_cases with hk | hk | hk | hk
  · exact .inl ⟨hk, by simp [decode, hk]⟩
  · exact .inr (.inl ⟨hk, by simp [decode, hk]⟩)
  · exact .inr (.inr (.inl ⟨hk, by simp [decode, hk]⟩))
  · refine .inr (.inr (.inr ⟨hk, ?_⟩))
    cases hi : instrOfOpc w.opc w.operands <;> simp [decode, hk, hi]

theorem decode_eq_error_iff {w : StmtWord} {r : Reject} :
    decode w = .error r ↔
      (w.kind = 3#2 ∧ instrOfOpc w.opc w.operands = none) ∧ r = .unknownInstruction w.opc := by
  rcases decode_cases w with ⟨hk, hd⟩ | ⟨hk, hd⟩ | ⟨hk, hd⟩ | ⟨hk, hd⟩
  · simp [hk, hd]
  · simp [hk, hd]
  · simp [hk, hd]
  · cases hi : instrOfOpc w.opc w.operands <;> simp [hk, hd, hi, eq_comm]

/-- Settles O3: only an INSN word asks the opcode map, and the map answers for its 36 numbers. -/
theorem unknownOpcodesAreTheUnlistedOnes : Obligations.UnknownOpcodesAreTheUnlistedOnes := by
  intro w
  simp only [decode_eq_error_iff, exists_and_left, exists_eq, and_true, instrOfOpc_eq_none_iff]
  rfl

end Sys2Proof
end

section
/-! Errors of operands: for each resolution function exactly which operands it refuses, and with which
error. Then the instructions: each checks its operand count before anything else, and the arithmetic
group resolves its destination before its source. -/

namespace Sys2Proof.Machine

/-! ### The operands refused -/

section

variable {s : State} {n : BitVec 4} {o : Operand} {p : AddrPart} {e : Err}

theorem regOfNumber_eq_none_iff : regOfNumber n = none ↔ 8 ≤ n.toNat := by
  revert n
  decide

theorem vregOfNumber_eq_none_iff : vregOfNumber n = none ↔ 4 ≤ n.toNat := by
  revert n
  decide

/-- Register numbers 8 to 15 name no register (30_encoding.md R120). -/
theorem numbered_eq_error : numbered n = .error e ↔ 8 ≤ n.toNat ∧ e = .invalidRegister := by
  rw [← regOfNumber_eq_none_iff, numbered]
  cases regOfNumber n <;> simp [eq_comm]

theorem regOf_eq_error : regOf o = .error e ↔ o.isReg = false ∧ e = .invalidRegister := by
  cases o with
  | reg n => simp [regOf, numbered_eq_error, Operand.isReg]
  | _ => simp [regOf, Operand.isReg, eq_comm]

theorem State.regValue_eq_error :
    s.regValue n = .error e ↔ 8 ≤ n.toNat ∧ e = .invalidRegister := by
  rw [← numbered_eq_error, State.regValue]
  cases numbered n <;> simp

theorem State.valRl10_eq_error :
    s.valRl10 o = .error e ↔
      o.isRl10 = false ∧
        (((∃ n, o = .reg n) ∧ e = .invalidRegister) ∨
          ((∀ n, o ≠ .reg n) ∧ e = .invalidOperand)) := by
  cases o with
  | reg n => simp [State.valRl10, State.regValue_eq_error, Operand.isRl10]
  | imm p b => cases b <;> simp [State.valRl10, Operand.isRl10, eq_comm]
  | _ => simp [State.valRl10, Operand.isRl10, eq_comm]

theorem State.valRl_eq_error :
    s.valRl o = .error e ↔
      o.isRl = false ∧
        (((∃ n, o = .reg n) ∧ e = .invalidRegister) ∨
          ((∀ n, o ≠ .reg n) ∧ e = .invalidOperand)) := by
  cases o with
  | reg n => simp [State.valRl, State.regValue_eq_error, Operand.isRl]
  | _ => simp [State.valRl, Operand.isRl, eq_comm]

theorem State.partVal_eq_error : s.partVal p = .error e ↔ p.ok = false ∧ e = .invalidRegister := by
  cases p with
  | reg n =>
    have hnum := numbered_eq_error (n := n) (e := e)
    simp only [State.partVal, AddrPart.ok, decide_eq_false_iff_not, Nat.not_lt, ← hnum]
    cases numbered n <;> simp
  | imm p b => simp [State.partVal, AddrPart.ok]

theorem AddrPart.ok_eq_false_iff : p.ok = false ↔ ∃ n, p = .reg n ∧ 8 ≤ n.toNat := by
  cases p <;> simp [AddrPart.ok]

theorem State.ok_of_partVal {x : Nat} (h : s.partVal p = .ok x) : p.ok = true := by
  by_contra hok
  rw [State.partVal_eq_error.2 ⟨Bool.eq_false_of_not_eq_true hok, rfl⟩] at h
  cases h

/-- An address is refused by its form, or by one of its parts (30_encoding.md R124). -/
theorem State.ea_eq_error :
    s.ea o = .error e ↔
      o.isAddr = false ∧
        ((o.isMem = true ∧ e = .invalidRegister) ∨ (o.isMem = false ∧ e = .invalidOperand)) := by
  cases o with
  | mem1 a => simp [State.ea, State.partVal_eq_error, Operand.isAddr, Operand.isMem]
  | mem2 a b =>
    cases ha : s.partVal a with
    | error f =>
      obtain ⟨hok, rfl⟩ := State.partVal_eq_error.1 ha
      simp [State.ea, ha, Operand.isAddr, Operand.isMem, hok, eq_comm]
    | ok x =>
      have hok := State.ok_of_partVal ha
      cases hb : s.partVal b with
      | error f =>
        obtain ⟨hok', rfl⟩ := State.partVal_eq_error.1 hb
        simp [State.ea, ha, hb, Operand.isAddr, Operand.isMem, hok', eq_comm]
      | ok y => simp [State.ea_mem2 ha hb, Operand.isAddr, hok, State.ok_of_partVal hb]
  | _ => simp [State.ea, Operand.isAddr, Operand.isMem, eq_comm]

theorem vregOf_eq_error : vregOf o = .error e ↔ o.isVreg = false ∧ e = .invalidOperand := by
  cases o with
  | vreg n =>
    simp only [vregOf, Operand.isVreg, decide_eq_false_iff_not, Nat.not_lt,
      ← vregOfNumber_eq_none_iff]
    cases vregOfNumber n <;> simp [eq_comm]
  | _ => simp [vregOf, Operand.isVreg, eq_comm]

theorem State.targetOf_eq_error :
    s.targetOf o = .error e ↔
      (∀ id, o = .label id → labelTarget s.labels id.toNat = none) ∧ e = .unknownLabel := by
  cases o with
  | label id =>
    simp only [State.targetOf, Operand.label.injEq, forall_eq']
    cases labelTarget s.labels id.toNat <;> simp [eq_comm]
  | _ => simp [State.targetOf, eq_comm]

/-! ### The operands accepted -/

variable {r : Reg}

theorem State.valRl10_reg (s : State) (hn : regOfNumber n = some r) :
    s.valRl10 (.reg n) = .ok (Binary64.ofNat (s.reg r)) :=
  State.valRl10_eq_ok.2 (.inl ⟨n, r, rfl, hn, rfl⟩)

theorem State.valAny_of_not_mem (h : o.isMem = false) : s.valAny o = s.valRl o :=
  if_neg (Bool.eq_false_iff.1 h)

theorem State.valAny_of_ea_error (hmem : o.isMem = true) (h : s.ea o = .error e) :
    s.valAny o = .error e := by
  rw [State.valAny, if_pos hmem, h, error_bind]

end

/-- Settles O5: the accepted operands by the lemmas on each function, the refused ones by its error
lemma. -/
theorem operandResolutionFollowsItsRules : Obligations.OperandResolutionFollowsItsRules := by
  refine ⟨rfl, rfl, fun s n m r q hr hq => ?_, fun s p b => ?_, fun s a b x y ha hb => ?_,
    fun s p e => ?_, fun s o => ⟨?_, fun a ha hlt => ?_, fun a ha hle => ?_, fun e => ?_⟩,
    fun s id t ht => ?_, fun s o e => ?_⟩
  · exact ⟨regOf_reg hr, s.valRl10_reg hr, State.valRl_eq_ok.2 (.inl ⟨n, r, rfl, hr, rfl⟩),
      s.partVal_reg hr, vregOf_vreg hq⟩
  · exact ⟨rfl, rfl, rfl, literalValue_eq p⟩
  · exact ⟨ha, State.ea_mem2 ha hb⟩
  · rw [State.partVal_eq_error, AddrPart.ok_eq_false_iff]
  · exact State.valAny_of_not_mem
  · exact (State.valAny_mem ha).trans (State.memRead_of_lt hlt)
  · exact (State.valAny_mem ha).trans (State.memRead_of_le hle)
  · exact State.valAny_of_ea_error
  · exact State.targetOf_eq_ok.2 ⟨id, rfl, ht⟩
  · exact ⟨regOf_eq_error, State.valRl10_eq_error, State.valRl_eq_error, State.ea_eq_error,
      vregOf_eq_error, State.targetOf_eq_error⟩

/-! ### The operand count -/

variable {s : State} {a b o2 : Operand} {e : Err}

/-- The count is the first check of every instruction (30_encoding.md R132). -/
theorem exec_checks_arity {i : Instr} {o : Operands} (h : i.operands? = some o) (s : State) :
    ∃ rest : Unit → Except Err State, exec i s = attempt s (checkArity i.arity o >>= rest) := by
  cases i with
  | blank => cases h
  | label id => cases h
  | halt => cases h
  | _ => cases h; exact ⟨_, rfl⟩

theorem checkArity_of_ne {n : Nat} {o : Operands} (h : o.nops.toNat ≠ n) :
    checkArity n o = .error .arityMismatch := by
  rw [checkArity, decide_eq_false h, require_false]

/-- Settles O16: the first check fails. -/
theorem wrongOperandCountRaisesArityMismatch : Obligations.WrongOperandCountRaisesArityMismatch := by
  intro i o s hops hcount
  obtain ⟨rest, hexec⟩ := exec_checks_arity hops s
  rw [hexec, checkArity_of_ne hcount, error_bind, attempt_error]
  rfl

/-! ### The arithmetic group -/

/-- An instruction one of whose checks fails enters that error. -/
theorem attempt_of_error {s : State} {r : Except Err State} {e : Err} (h : r = .error e) :
    attempt s r = .next (s.enterError e) :=
  congrArg (attempt s) h

/-- Destination first, then source, then the rest (41_arithmetic.md R170). -/
theorem exec_binaryGroup {f : Operands → Instr} (hf : f ∈ binaryGroup) (s : State)
    (a b o2 : Operand) :
    ∃ finish : Reg → Binary64 → Except Err State,
      exec (f ⟨2, a, b, o2⟩) s =
        attempt s (regOf a >>= fun d => s.valRl10 b >>= fun v => finish d v) := by
  simp only [binaryGroup, List.mem_cons, List.not_mem_nil, or_false] at hf
  rcases hf with rfl | rfl | rfl | rfl | rfl | rfl | rfl | rfl <;> exact ⟨_, rfl⟩

theorem exec_binaryGroup_of_dest_error {f : Operands → Instr} (hf : f ∈ binaryGroup)
    (ha : regOf a = .error e) : exec (f ⟨2, a, b, o2⟩) s = .next (s.enterError e) := by
  obtain ⟨finish, hexec⟩ := exec_binaryGroup hf s a b o2
  rw [hexec, ha, error_bind, attempt_error]

theorem exec_binaryGroup_of_source_error {f : Operands → Instr} (hf : f ∈ binaryGroup) {d : Reg}
    (ha : regOf a = .ok d) (hb : s.valRl10 b = .error e) :
    exec (f ⟨2, a, b, o2⟩) s = .next (s.enterError e) := by
  obtain ⟨finish, hexec⟩ := exec_binaryGroup hf s a b o2
  rw [hexec, ha, ok_bind, hb, error_bind, attempt_error]

theorem unaryArith_of_error (f : Binary64 → Binary64) (ha : regOf a = .error e) :
    unaryArith f ⟨1, a, b, o2⟩ s = .error e := by
  change (regOf a >>= _) = _
  rw [ha, error_bind]

theorem exists_regOf_of_isReg (ha : a.isReg = true) : ∃ d, regOf a = .ok d := by
  cases hreg : regOf a with
  | ok d => exact ⟨d, rfl⟩
  | error e => exact absurd ha (Bool.eq_false_iff.1 (regOf_eq_error.1 hreg).1)

/-- A divisor 0 is found after both operands have resolved (41_arithmetic.md R175). -/
theorem exec_div_of_zero {d : Reg} {v : Binary64} (ha : regOf a = .ok d) (hb : s.valRl10 b = .ok v)
    (hv : v.isZero = true) :
    exec (.div ⟨2, a, b, o2⟩) s = .next (s.enterError .divisionByZero) := by
  refine attempt_of_error ?_
  change (regOf a >>= fun d => s.valRl10 b >>= _) = _
  rw [ha, ok_bind, hb, ok_bind, hv]
  rfl

/-- Settles O26: the first check that fails gives the error. -/
theorem arithmeticErrorsLeaveEverything : Obligations.ArithmeticErrorsLeaveEverything := by
  intro s a b o2
  refine ⟨fun f hf => ⟨fun ha => ?_, fun ha hb => ?_⟩, fun ha => ?_, fun ha hb => ?_, fun _ => rfl⟩
  · exact exec_binaryGroup_of_dest_error hf (regOf_eq_error.2 ⟨ha, rfl⟩)
  · obtain ⟨d, hd⟩ := exists_regOf_of_isReg ha
    exact ⟨fun hreg => exec_binaryGroup_of_source_error hf hd
        (State.valRl10_eq_error.2 ⟨hb, .inl ⟨hreg, rfl⟩⟩),
      fun hreg => exec_binaryGroup_of_source_error hf hd
        (State.valRl10_eq_error.2 ⟨hb, .inr ⟨hreg, rfl⟩⟩)⟩
  · have herr : regOf a = .error .invalidRegister := regOf_eq_error.2 ⟨ha, rfl⟩
    exact ⟨attempt_of_error (unaryArith_of_error _ herr),
      attempt_of_error (unaryArith_of_error _ herr), attempt_of_error (unaryArith_of_error _ herr)⟩
  · obtain ⟨d, hd⟩ := exists_regOf_of_isReg ha
    exact exec_div_of_zero hd (State.valRl10_of_operandNat hb) rfl

end Sys2Proof.Machine
end

section
/-! The engine at rest and at its ends: a stopped engine answers every request with itself, the blank
statements that are left lead to the end of the program, and a word that is no instruction is no blank
statement either. -/

namespace Sys2Proof.Machine

variable {s : State} {hook : Nat → Bool}

/-! ### A stopped engine -/

theorem State.halted_iff :
    s.halted = true ↔ s.runState = .stoppedSuccess ∨ s.runState = .stoppedError := by
  cases h : s.runState <;> simp [State.halted, h]

theorem State.halted_congr {t : State} (h : t.runState = s.runState) : t.halted = s.halted := by
  simp only [State.halted, h]

theorem stepWith_of_halted (h : s.halted = true) : stepWith hook s = .next s := if_pos h

theorem stepContinues_of_halted (h : s.halted = true) : stepContinues hook s = false := by
  simp [stepContinues, stepWith_of_halted h, h]

theorem State.tick_of_halted (h : s.halted = true) : s.tick hook = .next s := by
  rcases State.halted_iff.1 h with hr | hr <;> simp [State.tick, hr]

theorem State.run_of_halted (h : s.halted = true) : s.run = s := by
  rcases State.halted_iff.1 h with hr | hr <;> simp [State.run, hr]

theorem State.setBitWidth_runState (s : State) (w : Nat) :
    (s.setBitWidth w).runState = s.runState := by
  unfold State.setBitWidth
  split <;> rfl

/-- Settles O10: each entry point in a stopped state. -/
theorem stoppedEngineStaysAsItIs : Obligations.StoppedEngineStaysAsItIs := by
  intro hook s h
  refine ⟨stepWith_of_halted h, stepContinues_of_halted h, State.tick_of_halted h,
    State.run_of_halted h, h, fun w => ?_, fun _ => h, rfl, fun _ _ => rfl, fun text htext => ?_,
    fun text t ht => ?_⟩
  · exact (State.halted_congr (s.setBitWidth_runState w)).trans h
  · rcases htext with hempty | ⟨k, hdup⟩
    · exact State.loadProgram_empty hempty
    · exact State.loadProgram_duplicate hdup
  · rcases State.loadProgram_cases ht with hkept | ⟨-, -, rfl⟩
    · exact .inl hkept
    · exact .inr rfl

/-! ### The skipping of blank statements -/

/-- Only a word of kind BLANK decodes to BLANK: the opcode map has no row for it. -/
theorem decode_eq_blank_iff {w : StmtWord} :
    decode w = .ok .blank ↔ StmtWord.isBlank w = true := by
  rcases decode_cases w with ⟨hk, hd⟩ | ⟨hk, hd⟩ | ⟨hk, hd⟩ | ⟨hk, hd⟩
  · simp [hd, StmtWord.isBlank, hk]
  · simp [hd, StmtWord.isBlank, hk]
  · simp [hd, StmtWord.isBlank, hk]
  · cases hi : instrOfOpc w.opc w.operands with
    | none => simp [hd, hi, StmtWord.isBlank, hk]
    | some i =>
      have hne : i ≠ .blank := by
        rintro rfl
        cases operands?_of_instrOfOpc hi
      simp [hd, hi, StmtWord.isBlank, hk, hne]

theorem blankRun_eq_length {l : List StmtWord} (h : ∀ w ∈ l, StmtWord.isBlank w = true) :
    blankRun l = l.length := by
  induction l with
  | nil => rfl
  | cons w l ih =>
    rw [blankRun, if_pos (h w List.mem_cons_self), ih fun u hu => h u (List.mem_cons_of_mem w hu),
      List.length_cons]

theorem blankRun_of_head? {l : List StmtWord} {w : StmtWord} (hl : l.head? = some w)
    (h : StmtWord.isBlank w = false) : blankRun l = 0 := by
  cases l with
  | nil => rfl
  | cons u l =>
    cases hl
    rw [blankRun, if_neg (Bool.eq_false_iff.1 h)]

/-- A step that finds only blank statements begins with the cursor at the end, or where it was beyond
the end (40_sequencer.md R146). -/
theorem State.beginStep_pc_of_blanks
    (h : ∀ k w, s.pc ≤ k → s.prog[k]? = some w → decode w = .ok .blank) :
    s.beginStep.pc = max s.pc s.progLen := by
  have hblank : ∀ w ∈ s.prog.drop s.pc, StmtWord.isBlank w = true := fun w hw => by
    obtain ⟨k, hk⟩ := List.mem_iff_getElem?.1 hw
    rw [List.getElem?_drop] at hk
    exact decode_eq_blank_iff.1 (h _ w (Nat.le_add_right _ _) hk)
  change s.pc + blankRun (s.prog.drop s.pc) = max s.pc s.prog.length
  rw [blankRun_eq_length hblank, List.length_drop]
  omega

/-- A step at a statement that is not blank begins there. -/
theorem State.beginStep_of_not_blank {w : StmtWord} (hw : s.prog[s.pc]? = some w)
    (h : StmtWord.isBlank w = false) : s.beginStep = { s with bpSkip := false } := by
  have hrun : blankRun (s.prog.drop s.pc) = 0 := blankRun_of_head? (List.head?_drop.trans hw) h
  change { s with bpSkip := false, pc := s.pc + blankRun (s.prog.drop s.pc) } = _
  rw [hrun]
  rfl

/-! ### The ends of a run -/

theorem stepWith_of_fetch_none (hs : s.halted = false) (hp : s.pausesHere hook = false)
    (hf : s.beginStep.fetch = none) : stepWith hook s = .next s.beginStep.complete := by
  simp [stepWith, runStep, hs, hp, hf]

theorem stepWith_of_fetch_error {r : Reject} (hs : s.halted = false)
    (hp : s.pausesHere hook = false) (hf : s.beginStep.fetch = some (.error r)) :
    stepWith hook s = .next (s.beginStep.enterError .unknownInstruction) := by
  simp [stepWith, runStep, hs, hp, hf]

theorem State.fetch_eq_none (h : s.progLen ≤ s.pc) : s.fetch = none := by
  simp only [State.fetch, List.getElem?_eq_none h]

theorem State.fetch_of_getElem? {w : StmtWord} (h : s.prog[s.pc]? = some w) :
    s.fetch = some (decode w) := by
  simp only [State.fetch, h]

/-- Settles O11: the cursor comes to the end of the program and nothing is fetched there; an unknown
word is fetched where the cursor is. -/
theorem stepAtTheEndAndAtAnUnknownInstruction :
    Obligations.StepAtTheEndAndAtAnUnknownInstruction := by
  intro hook s hs hp
  refine ⟨fun hblanks => ?_, fun w r hw hr => ?_⟩
  · have hpc := State.beginStep_pc_of_blanks hblanks
    have hend : s.beginStep.progLen ≤ s.beginStep.pc := hpc ▸ Nat.le_max_right s.pc s.progLen
    rw [stepWith_of_fetch_none hs hp (State.fetch_eq_none hend), ← hpc]
    rfl
  · have hnot : StmtWord.isBlank w = false := Bool.eq_false_iff.2 fun h => by
      rw [decode_eq_blank_iff.2 h] at hr
      cases hr
    have hbegin := State.beginStep_of_not_blank hw hnot
    have hfetch : s.beginStep.fetch = some (.error r) := by
      rw [hbegin, ← hr]
      exact State.fetch_of_getElem? hw
    rw [stepWith_of_fetch_error hs hp hfetch, hbegin]
    rfl

end Sys2Proof.Machine
end

section
/-! The sequencer: a step at a statement that is not blank runs it where it is, a step at a blank
statement is the step from the next statement, `run_state` moves as 40_sequencer.md R156 lists alone,
and a pending stop request rides through a step unread. -/

namespace Sys2Proof.Machine

variable {s t u : State} {hook : Nat → Bool} {i : Instr}

/-! ### A step at an instruction -/

theorem stepWith_of_fetch_ok (hs : s.halted = false) (hp : s.pausesHere hook = false)
    (hf : s.beginStep.fetch = some (.ok i)) :
    stepWith hook s = settleResult (exec i s.beginStep) := by
  simp [stepWith, runStep, hs, hp, hf]

theorem StmtWord.isBlank_eq_false {w : StmtWord} (h : decode w ≠ .ok .blank) :
    StmtWord.isBlank w = false :=
  Bool.eq_false_iff.2 fun hw => h (decode_eq_blank_iff.2 hw)

theorem stepWith_of_decode {w : StmtWord} (hs : s.halted = false) (hp : s.pausesHere hook = false)
    (hw : s.prog[s.pc]? = some w) (hd : decode w = .ok i) (hne : i ≠ .blank) :
    stepWith hook s = settleResult (exec i { s with bpSkip := false }) := by
  have hnot : decode w ≠ .ok .blank := fun h => hne (Except.ok.inj (hd.symm.trans h))
  have hbegin := State.beginStep_of_not_blank hw (StmtWord.isBlank_eq_false hnot)
  have hfetch : s.beginStep.fetch = some (.ok i) := by
    rw [hbegin, ← hd]
    exact State.fetch_of_getElem? hw
  rw [stepWith_of_fetch_ok hs hp hfetch, hbegin]

/-- Settles O7: no blank statement is skipped, so the word at the cursor is the one fetched; `step` is
the case of the hook that State holds. -/
theorem stepRunsTheDecodedInstruction : Obligations.StepRunsTheDecodedInstruction :=
  fun _ _ _ _ hs hw hd _ hne =>
    ⟨fun hp => stepWith_of_decode hs hp hw hd hne, fun hp => stepWith_of_decode hs hp hw hd hne⟩

/-! ### A step at a blank statement -/

theorem blankRun_drop_of_blank {l : List StmtWord} {n : Nat} {w : StmtWord} (hw : l[n]? = some w)
    (h : StmtWord.isBlank w = true) : blankRun (l.drop n) = blankRun (l.drop (n + 1)) + 1 := by
  obtain ⟨hn, rfl⟩ := List.getElem?_eq_some_iff.1 hw
  rw [List.drop_eq_getElem_cons hn, blankRun, if_pos h]

/-- Skipping from a blank statement is skipping from the one after it (40_sequencer.md R146). -/
theorem State.beginStep_of_blank {w : StmtWord} (hw : s.prog[s.pc]? = some w)
    (h : StmtWord.isBlank w = true) :
    s.beginStep = { s with pc := s.pc + 1, bpSkip := true }.beginStep := by
  change { s with bpSkip := false, pc := s.pc + blankRun (s.prog.drop s.pc) } =
    { s with bpSkip := false, pc := s.pc + 1 + blankRun (s.prog.drop (s.pc + 1)) }
  rw [blankRun_drop_of_blank hw h, Nat.add_right_comm, Nat.add_assoc]

/-- Past the tests for a stop and a breakpoint, a step reads only the state with its blanks skipped. -/
theorem stepWith_congr_beginStep (hs : s.halted = false) (hu : u.halted = false)
    (hps : s.pausesHere hook = false) (hpu : u.pausesHere hook = false)
    (h : s.beginStep = u.beginStep) : stepWith hook s = stepWith hook u := by
  simp [stepWith, runStep, hs, hu, hps, hpu, h]

/-- Settles O8: BLANK, LABEL and END by their meanings, the step by the blanks it skips. -/
theorem statementKindsBlankLabelAndEnd : Obligations.StatementKindsBlankLabelAndEnd := by
  refine ⟨fun s id => ⟨rfl, rfl, rfl⟩, fun hook s w hs hp hw hd => ?_⟩
  exact stepWith_congr_beginStep hs hs hp rfl
    (State.beginStep_of_blank hw (decode_eq_blank_iff.1 hd))

/-! ### The transitions of `run_state` -/

/-- Of the effects END alone moves `run_state`. -/
theorem Effect.runState_cases {k : Shape} (h : Effect s k t) :
    t.runState = s.runState ∨ t.runState = .stoppedSuccess := by
  cases h with
  | halt => exact .inr rfl
  | _ => exact .inl rfl

theorem exec_runState (h : exec i s = .next t) :
    t.runState = s.runState ∨ t.runState = .stoppedSuccess ∨ t.runState = .stoppedError := by
  rcases exec_effect h with ⟨e, rfl⟩ | h
  · exact .inr (.inr rfl)
  · exact h.runState_cases.imp_right .inl

/-- A step past the tests for a stop and a breakpoint stops the engine or settles `run_state`
(40_sequencer.md R142, R153). -/
theorem stepWith_runState (hs : s.halted = false) (hp : s.pausesHere hook = false)
    (h : stepWith hook s = .next t) :
    t.runState = .stoppedSuccess ∨ t.runState = .stoppedError ∨
      t.runState = s.runState.settle := by
  cases stepWith_answers h with
  | halted hs' => exact absurd (hs'.symm.trans hs) Bool.noConfusion
  | pause _ hp' => exact absurd (hp'.symm.trans hp) Bool.noConfusion
  | atEnd => exact .inl rfl
  | unknown => exact .inr (.inl rfl)
  | ran _ _ i u _ hu =>
    change u.runState.settle = _ ∨ u.runState.settle = _ ∨ u.runState.settle = _
    rcases exec_runState hu with hr | hr | hr
    · exact .inr (.inr (congrArg RunState.settle hr))
    · exact .inl (congrArg RunState.settle hr)
    · exact .inr (.inl (congrArg RunState.settle hr))

/-- `run_state` settles to Running in run mode, to Paused outside it (40_sequencer.md R153). -/
theorem State.settle_cases (hs : s.halted = false) :
    (s.runState = .running ∧ s.runState.settle = .running) ∨
      (s.runState ≠ .running ∧ s.runState.settle = .paused) := by
  cases h : s.runState with
  | running => exact .inl ⟨rfl, rfl⟩
  | loaded => exact .inr ⟨RunState.noConfusion, rfl⟩
  | paused => exact .inr ⟨RunState.noConfusion, rfl⟩
  | stoppedSuccess => simp [State.halted, h] at hs
  | stoppedError => simp [State.halted, h] at hs

theorem State.halted_of_settle (h : t.runState = s.runState.settle) : t.halted = s.halted := by
  cases hr : s.runState <;> simp [State.halted, h, hr, RunState.settle]

/-- A step that executes something and does not stop the engine returns true. -/
theorem stepContinues_of_next (hs : s.halted = false) (hp : s.pausesHere hook = false)
    (h : stepWith hook s = .next t) (ht : t.halted = false) : stepContinues hook s = true := by
  simp [stepContinues, h, hs, hp, ht]

/-- Settles O12: the three ways of a step, stopped, paused and past both, where what is neither stop
is the settled `run_state`. -/
theorem stepMakesOnlyTheTransitionsOfTheTable :
    Obligations.StepMakesOnlyTheTransitionsOfTheTable := by
  intro hook s t h
  refine ⟨fun hs => ?_, fun hs => ⟨fun hp => ?_, fun hp => ?_⟩⟩
  · rw [stepWith_of_halted hs] at h
    cases h
    rfl
  · rw [stepWith_pause hs hp] at h
    cases h
    rfl
  · rcases stepWith_runState hs hp h with hr | hr | hr
    · exact .inl hr
    · exact .inr (.inl hr)
    · have hcont := stepContinues_of_next hs hp h ((State.halted_of_settle hr).trans hs)
      rcases State.settle_cases hs with ⟨hrun, hsettle⟩ | ⟨hrun, hsettle⟩
      · exact .inr (.inr (.inl ⟨hrun, hr.trans hsettle, hcont⟩))
      · exact .inr (.inr (.inr ⟨hrun, hr.trans hsettle, hcont⟩))

/-! ### A pending stop request -/

theorem State.stop_memWrite (s : State) (a : Nat) (v : Binary64) :
    s.stop.memWrite a v = State.stop <$> s.memWrite a v := by
  change (if a < s.memLen then _ else _) = State.stop <$> (if a < s.memLen then _ else _)
  split <;> rfl

theorem State.stop_memWrite4 (s : State) (a : Nat) (l : Lanes) :
    s.stop.memWrite4 a l = State.stop <$> s.memWrite4 a l := by
  change (if a + 3 < s.memLen then _ else _) = State.stop <$> (if a + 3 < s.memLen then _ else _)
  split <;> rfl

theorem State.stop_pushCell (s : State) (v : Binary64) :
    s.stop.pushCell v = State.stop <$> s.pushCell v := by
  simp only [State.pushCell, State.stop_memWrite, map_bind, bind_map_left]
  rfl

theorem condJump_stop (c : Bool) (o : Operands) (s : State) :
    condJump c o s.stop = State.stop <$> condJump c o s := by
  cases c
  · simp only [condJump, map_bind, Bool.false_eq_true, if_false]
    rfl
  · simp only [condJump, map_bind, if_true]
    rfl

/-- A computation that carries the request through gives an instruction that does. -/
theorem attempt_stop {r r' : Except Err State} (hr : r' = State.stop <$> r)
    (h : attempt s r = .next t) : attempt s.stop r' = .next t.stop := by
  subst hr
  cases r <;> cases h <;> rfl

theorem exec_stop (h : exec i s = .next t) : exec i s.stop = .next t.stop := by
  cases i with
  | add o | sub o | mul o | and o | or o | xor o =>
    exact attempt_stop (by simp only [binaryArith, map_bind]; rfl) h
  | inc o | dec o | not o => exact attempt_stop (by simp only [unaryArith, map_bind]; rfl) h
  | mov o =>
    refine attempt_stop ?_ h
    simp only [map_bind]
    split
    · simp only [movToMemory, State.stop_memWrite, map_bind, bind_map_left]
      rfl
    · simp only [movToRegister, map_bind]
      rfl
  | store o | swap o | rot o =>
    exact attempt_stop (by simp only [State.stop_memWrite, map_bind, bind_map_left]; rfl) h
  | push o | dup o | call o =>
    exact attempt_stop (by simp only [State.stop_pushCell, map_bind, bind_map_left]; rfl) h
  | vstore o =>
    exact attempt_stop (by simp only [State.stop_memWrite4, map_bind, bind_map_left]; rfl) h
  | jmp o | je o | jz o | jne o | jnz o | jl o | jg o | jle o | jge o =>
    exact attempt_stop (condJump_stop _ o s) h
  | vadd o | vmul o => exact attempt_stop (by simp only [laneWise, map_bind]; rfl) h
  | div o | cmp o | load o | pop o | ret o | vdiv o | vload o | setmatsize o =>
    exact attempt_stop (by simp only [map_bind]; rfl) h
  | blank | label | halt =>
    cases h
    rfl

/-- Each answer of a step is the step's own: the other direction of `stepWith_answers`. -/
theorem StepAnswers.stepWith_eq (h : StepAnswers hook s t) : stepWith hook s = .next t := by
  cases h with
  | halted hs => exact stepWith_of_halted hs
  | pause hs hp => exact stepWith_pause hs hp
  | atEnd hs hp hf => exact stepWith_of_fetch_none hs hp hf
  | unknown hs hp r hf => exact stepWith_of_fetch_error hs hp hf
  | ran hs hp i u hf hu =>
    rw [stepWith_of_fetch_ok hs hp hf, hu]
    rfl

/-- No way through a step reads the request (40_sequencer.md R155). -/
theorem StepAnswers.stop (h : StepAnswers hook s t) : StepAnswers hook s.stop t.stop := by
  cases h with
  | halted hs => exact .halted hs
  | pause hs hp => exact .pause hs hp
  | atEnd hs hp hf => exact .atEnd hs hp hf
  | unknown hs hp r hf => exact .unknown hs hp r hf
  | ran hs hp i u hf hu => exact .ran (s := s.stop) hs hp i u.stop hf (exec_stop hu)

theorem State.run_of_idle (h : s.runState = .loaded ∨ s.runState = .paused) :
    s.run = { s with runState := .running, stopReq := false } := by
  rcases h with h | h <;> simp only [State.run, h]

theorem State.tick_of_running (h : s.runState = .running) (hstop : s.stopReq = false) :
    s.tick hook = stepWith hook s := by
  simp [State.tick, h, hstop]

theorem State.tick_of_stopReq (h : s.runState = .running) (hstop : s.stopReq = true) :
    s.tick hook = .next s.consumeStop := by
  simp [State.tick, h, hstop]

theorem State.tick_of_not_running (h : s.runState ≠ .running) : s.tick hook = .next s := by
  cases hr : s.runState with
  | running => exact absurd hr h
  | _ => simp only [State.tick, hr]

/-- Settles O13: `run()` and the tick by the run state and the request, the step by its answers. -/
theorem runModeTicksAndStopRequests : Obligations.RunModeTicksAndStopRequests := by
  intro hook s
  refine ⟨rfl, fun h => ⟨State.run_of_idle h, ?_⟩, State.tick_of_running,
    fun h => State.tick_of_stopReq (s := s.stop) h rfl,
    fun h => ⟨State.tick_of_not_running h, State.tick_of_not_running (s := s.stop) h⟩,
    fun t h => (stepWith_answers h).stop.stepWith_eq⟩
  exact (State.run_of_idle (s := s.stop) h).trans (State.run_of_idle h).symm

end Sys2Proof.Machine
end

section
/-! Arithmetic on whole numbers: sums, differences and products are the rounded exact integers, and the
rounding of a quotient of two operands keeps its floor and its zero test. -/

namespace Sys2Proof

/-! ### Rounding a quotient -/

theorem nearestEven_mul_left {c : Nat} (hc : 0 < c) (num d : Nat) :
    nearestEven (c * num) (c * d) = nearestEven num d := by
  simp only [nearestEven, Nat.mul_div_mul_left _ _ hc, Nat.mul_mod_mul_left,
    Nat.mul_left_comm 2 c, Nat.mul_lt_mul_left hc]

/-- Rounding depends on the quotient alone. -/
theorem roundQuotient_mul_left {c : Nat} (hc : 0 < c) (num den : Nat) :
    roundQuotient (c * num) (c * den) = roundQuotient num den := by
  have hspacing : spacing (c * num) (c * den) = spacing num den := by
    rw [spacing, Nat.mul_div_mul_left _ _ hc, spacing]
  rw [roundQuotient_eq, hspacing, Nat.mul_assoc, nearestEven_mul_left hc, roundQuotient_eq]

/-- Rounding does not go below a number with a 53-bit significand. -/
theorem HasSignificand.le_roundQuotient {m num den : Nat} (hm : HasSignificand m) (hden : 0 < den)
    (h : m * den ≤ num) : m ≤ roundQuotient num den := by
  by_contra hlt
  have hbelow : roundQuotient num den * den < m * den :=
    Nat.mul_lt_mul_of_pos_right (Nat.not_le.1 hlt) hden
  have hnear := (gap_roundQuotient (num := num) hden hm).1
  unfold gap at hnear
  omega

theorem roundQuotient_mul_le (num den : Nat) :
    roundQuotient num den * den ≤ num + den * spacing num den := by
  rw [roundQuotient_mul_den]
  generalize den * spacing num den = d
  have hle : nearestEven num d ≤ num / d + 1 := by
    rcases (nearestEven_cases num d).1 with h | h <;> omega
  calc nearestEven num d * d ≤ (num / d + 1) * d := Nat.mul_le_mul_right d hle
    _ = num / d * d + d := Nat.succ_mul _ _
    _ ≤ num + d := Nat.add_le_add_right (Nat.div_mul_le_self num d) d

theorem spacing_cases (num den : Nat) :
    spacing num den = 1 ∨ 2 ^ 52 * spacing num den ≤ num / den := by
  unfold spacing
  generalize num / den = q
  rcases Nat.le_total q.log2 52 with hle | hge
  · exact .inl (by rw [Nat.sub_eq_zero_of_le hle, pow_zero])
  · have hq : q ≠ 0 := by
      rintro rfl
      rw [Nat.log2_zero] at hge
      omega
    rw [← pow_add, Nat.add_sub_cancel' hge]
    exact .inr (Nat.log2_self_le hq)

namespace Binary64

theorem two_pow_64_lt_unit : 2 ^ 64 < unit :=
  lt_of_lt_of_eq (pow_lt_pow_right₀ one_lt_two (by omega)) unit_eq.symm

theorem mul_spacing_lt_unit {x k : Nat} (hx : x < 2 ^ 32) (hk : k ≤ 2 ^ 64) :
    k * spacing (unit * x) k < unit := by
  have hunit := two_pow_64_lt_unit
  rcases spacing_cases (unit * x) k with h | h
  · rw [h, Nat.mul_one]
    omega
  · have hscaled : 2 ^ 52 * (k * spacing (unit * x) k) ≤ unit * x := by
      calc 2 ^ 52 * (k * spacing (unit * x) k) = 2 ^ 52 * spacing (unit * x) k * k := by ring
        _ ≤ unit * x / k * k := Nat.mul_le_mul_right k h
        _ ≤ unit * x := Nat.div_mul_le_self _ _
    have hnum : unit * x ≤ unit * 2 ^ 32 := Nat.mul_le_mul_left _ hx.le
    omega

/-- `x / k` is a multiple of `1 / k`, and `x` is so small that the spacing around the quotient is less
than `1 / k`: the rounded quotient has the floor of the exact one. -/
theorem roundQuotient_div_unit {x k : Nat} (hx : x < 2 ^ 32) (hk0 : 0 < k) (hk : k ≤ 2 ^ 64) :
    roundQuotient (unit * x) k / unit = x / k := by
  have hfloor : x / k ≤ 2 ^ 53 := le_trans (Nat.div_le_self x k) (by omega)
  have hlow : unit * (x / k) ≤ roundQuotient (unit * x) k := by
    refine (hasSignificand_unit_mul hfloor).le_roundQuotient hk0 ?_
    rw [Nat.mul_assoc]
    exact Nat.mul_le_mul_left _ (Nat.div_mul_le_self x k)
  have hhigh : roundQuotient (unit * x) k < unit * (x / k + 1) := by
    refine Nat.lt_of_mul_lt_mul_right (a := k) ?_
    calc roundQuotient (unit * x) k * k
        ≤ unit * x + k * spacing (unit * x) k := roundQuotient_mul_le _ _
      _ < unit * x + unit := Nat.add_lt_add_left (mul_spacing_lt_unit hx hk) _
      _ = unit * (x + 1) := (Nat.mul_succ _ _).symm
      _ ≤ unit * (k * (x / k + 1)) := Nat.mul_le_mul_left _ (Nat.lt_mul_div_succ x hk0)
      _ = unit * (x / k + 1) * k := by ring
  rw [Nat.mul_comm unit (x / k)] at hlow
  rw [Nat.mul_comm unit (x / k + 1)] at hhigh
  exact Nat.div_eq_of_lt_le hlow hhigh

/-- The quotient of a register by an operand is finite. -/
theorem fl_quotient {x k : Nat} (hx : x < 2 ^ 32) (hk0 : 0 < k) (hk : k ≤ 2 ^ 64) :
    fl false (unit * x) k = .fin false (roundQuotient (unit * x) k) := by
  refine if_pos ?_
  have hfloor := roundQuotient_div_unit hx hk0 hk
  have hle : x / k + 1 ≤ 2 ^ 32 := Nat.succ_le_of_lt (lt_of_le_of_lt (Nat.div_le_self x k) hx)
  refine lt_of_lt_of_le ?_ (unit_mul_lt_limit (lt_two_pow_1024_of_le hle (by omega))).le
  rw [← hfloor]
  exact Nat.lt_mul_div_succ _ unit_pos

theorem trunc_fl_quotient {x k : Nat} (hx : x < 2 ^ 32) (hk0 : 0 < k) (hk : k ≤ 2 ^ 64) :
    (fl false (unit * x) k).trunc = (x / k : Nat) := by
  rw [fl_quotient hx hk0 hk, ← roundQuotient_div_unit hx hk0 hk]
  rfl

/-- A quotient of at least one unit does not round to 0. -/
theorem isZero_fl_quotient {x k : Nat} (hx : x < 2 ^ 32) (hk0 : 0 < k) (hk : k ≤ 2 ^ 64) :
    (fl false (unit * x) k).isZero = decide (x = 0) := by
  rw [fl_quotient hx hk0 hk, isZero, decide_eq_decide]
  constructor
  · intro hzero
    by_contra hne
    have hone : 1 * k ≤ unit * x := by
      have hunit := two_pow_64_lt_unit
      have hmul : unit ≤ unit * x := Nat.le_mul_of_pos_right _ (Nat.pos_of_ne_zero hne)
      omega
    have hle := HasSignificand.le_roundQuotient (m := 1) (by decide) hk0 hone
    omega
  · rintro rfl
    simp [roundQuotient]

theorem ltNum_zero_of_notNegative {v : Binary64} (h : v.NotNegative) : v.ltNum .zero = false := by
  rcases notNegative_cases h with rfl | rfl | ⟨m, rfl⟩
  · rfl
  · rfl
  · exact decide_eq_false (Int.not_lt.2 (Int.natCast_nonneg m))

/-! ### The operations on integers -/

theorem units_whole (a : Nat) : (fin false (unit * a)).units = unit * (a : Int) :=
  Int.natCast_mul _ _

theorem units_neg_whole (a : Nat) : (fin true (unit * a)).units = unit * (-(a : Int)) := by
  rw [mul_neg, ← Int.natCast_mul]
  rfl

theorem ofInt_zero : ofInt 0 = .fin false 0 := fl_zero false

theorem ofInt_natCast (k : Nat) : ofInt k = ofNat k := by
  rw [ofInt, Int.natAbs_natCast, decide_eq_false (Int.not_lt.2 (Int.natCast_nonneg k)), ofNat]

/-- The sum of two integers is the rounded exact sum. The sum of two negative zeros alone is -0. -/
theorem add_eq_ofInt {p q : Bool} {m n : Nat} {x y : Int} (hx : (fin p m).units = unit * x)
    (hy : (fin q n).units = unit * y) (hsign : x + y = 0 → (p && q) = false) :
    add (.fin p m) (.fin q n) = ofInt (x + y) := by
  have hunit := unit_pos
  have hneg : (unit : Int) * (x + y) < 0 ↔ x + y < 0 := by
    rw [Int.mul_neg_iff]
    omega
  simp only [add, hx, hy, ← mul_add]
  split
  · next h =>
    have hsum : x + y = 0 := (Int.mul_eq_zero.1 h).resolve_left (by omega)
    rw [hsign hsum, hsum, ofInt_zero]
  · rw [ofInt, Int.natAbs_mul, Int.natAbs_natCast]
    simp only [hneg]

theorem add_whole (a b : Nat) :
    add (.fin false (unit * a)) (.fin false (unit * b)) = ofInt ((a : Int) + b) :=
  add_eq_ofInt (units_whole a) (units_whole b) fun _ => rfl

theorem sub_whole (a b : Nat) :
    sub (.fin false (unit * a)) (.fin false (unit * b)) = ofInt ((a : Int) - b) :=
  add_eq_ofInt (units_whole a) (units_neg_whole b) fun _ => rfl

theorem neg_sub_whole (a : Nat) {b : Nat} (hb : 0 < b) :
    sub (neg (.fin false (unit * a))) (.fin false (unit * b)) = ofInt (-(a : Int) - b) :=
  add_eq_ofInt (units_neg_whole a) (units_neg_whole b) fun h => by omega

theorem mul_whole (a b : Nat) :
    mul (.fin false (unit * a)) (.fin false (unit * b)) = ofInt ((a : Int) * b) := by
  have hround : roundQuotient (unit * a * (unit * b)) unit = roundQuotient (unit * (a * b)) 1 := by
    have hscaled : unit * a * (unit * b) = unit * (unit * (a * b)) := by ring
    rw [hscaled, ← roundQuotient_mul_left unit_pos (unit * (a * b)) 1, Nat.mul_one]
  rw [← Int.natCast_mul, ofInt_natCast]
  simp only [mul, ofNat, fl, hround, bne_self_eq_false]

theorem isZero_whole {k : Nat} (hk : 0 < k) : (fin false (unit * k)).isZero = false :=
  decide_eq_false (Nat.mul_pos unit_pos hk).ne'

theorem div_whole (a : Nat) {b : Nat} (hb : 0 < b) :
    div (.fin false (unit * a)) (.fin false (unit * b)) = fl false (unit * a) b := by
  simp only [div, (Nat.mul_pos unit_pos hb).ne', if_false, bne_self_eq_false, fl,
    roundQuotient_mul_left unit_pos]

end Binary64

theorem maskNum_of_trunc {v : Binary64} {k : Nat} (h : v.trunc = k) (w : Width) :
    maskNum w v = k % 2 ^ w.bits := by
  rw [maskNum, h, ← Int.natCast_mod, Int.toNat_natCast]

theorem literalNat_le (p : Word) : literalNat p ≤ 2 ^ 64 := by
  have hround := roundQuotient_unit_le p.isLt.le (by omega)
  have hvalue : Binary64.fl false (Binary64.unit * p.toNat) 1 = _ := literalValue_eq p
  unfold Binary64.fl at hvalue
  simp only at hvalue
  split at hvalue
  · rw [(Binary64.fin.inj hvalue).2] at hround
    exact Nat.le_of_mul_le_mul_left hround Binary64.unit_pos
  · cases hvalue

namespace Machine

theorem bitwiseNum_whole (f : Nat → Nat → Nat) (a b : Nat) :
    bitwiseNum f (.fin false (Binary64.unit * a)) (.fin false (Binary64.unit * b)) =
      Binary64.ofNat (f a b) := by
  have htrunc (k : Nat) : (Binary64.fin false (Binary64.unit * k)).trunc.toNat = k :=
    Nat.mul_div_cancel_left k Binary64.unit_pos
  rw [bitwiseNum, htrunc, htrunc]

theorem one_eq : one = .fin false (Binary64.unit * 1) := Binary64.ofNat_exact (by omega)

end Machine

end Sys2Proof
end

section
/-! The arithmetic group on operands that resolve: each instruction completes and leaves an
`ArithOutcome` of its exact result. -/

namespace Sys2Proof.Machine

variable {s t : State} {n : BitVec 4} {d : Reg} {src : Operand} {k : Nat} {r : Binary64}

/-! ### Two operands -/

theorem State.operandNat_le (h : s.operandNat src = some k) : k ≤ 2 ^ 64 := by
  unfold State.operandNat at h
  split at h
  · obtain ⟨q, -, rfl⟩ := Option.map_eq_some_iff.1 h
    exact le_trans (s.reg_lt q).le (by omega)
  · cases h
    exact literalNat_le _
  · cases h

theorem State.commitArith_outcome (s : State) (d : Reg) (r : Binary64) :
    ArithOutcome s (s.commitArith d r) d r := by
  refine ⟨?_, rfl, rfl, rfl, rfl, fun q hq => ?_, fun _ _ => rfl, fun _ _ => rfl, rfl, ?_⟩
  · simp only [State.commitArith, State.advance_reg, State.writeReg_reg, if_true,
      State.updateFlags_W]
  · simp only [State.commitArith, State.advance_reg, State.writeReg_reg,
      if_neg (mt List.mem_singleton.2 hq), State.updateFlags_reg]
  · simp [ControlKept, State.commitArith]

/-- The two-operand form completes on a register and an operand that resolves (41_arithmetic.md R170). -/
theorem binaryArith_outcome {f : Binary64 → Binary64 → Binary64} (o2 : Operand)
    (hd : regOfNumber n = some d) (hk : s.operandNat src = some k)
    (hf : f (.fin false (Binary64.unit * s.reg d)) (.fin false (Binary64.unit * k)) = r) :
    ∃ t, attempt s (binaryArith f ⟨2, .reg n, src, o2⟩ s) = .next t ∧ ArithOutcome s t d r := by
  refine ⟨_, attempt_of_ok ?_, s.commitArith_outcome d r⟩
  simp only [binaryArith, bind_eq_ok]
  exact ⟨(), rfl, d, regOf_reg hd, _, State.valRl10_of_operandNat hk, by rw [s.regNum_eq, hf]⟩

/-- The one-operand form completes on every register (41_arithmetic.md R179 to R181). -/
theorem unaryArith_outcome {f : Binary64 → Binary64} (o1 o2 : Operand) (hd : regOfNumber n = some d)
    (hf : f (.fin false (Binary64.unit * s.reg d)) = r) :
    ∃ t, attempt s (unaryArith f ⟨1, .reg n, o1, o2⟩ s) = .next t ∧ ArithOutcome s t d r := by
  refine ⟨_, attempt_of_ok ?_, s.commitArith_outcome d r⟩
  simp only [unaryArith, bind_eq_ok]
  exact ⟨(), rfl, d, regOf_reg hd, by rw [s.regNum_eq, hf]⟩

theorem exec_div_outcome (o2 : Operand) (hd : regOfNumber n = some d)
    (hk : s.operandNat src = some k) (hpos : 0 < k) :
    ∃ t, exec (.div ⟨2, .reg n, src, o2⟩) s = .next t ∧
      ArithOutcome s t d (Binary64.fl false (Binary64.unit * s.reg d) k) := by
  refine ⟨_, attempt_of_ok ?_, s.commitArith_outcome d _⟩
  simp only [bind_eq_ok]
  refine ⟨(), rfl, d, regOf_reg hd, _, State.valRl10_of_operandNat hk, (), ?_, ?_⟩
  · rw [Binary64.isZero_whole hpos]
    rfl
  · rw [s.regNum_eq, Binary64.div_whole _ hpos]

/-- Settles O24: on integers the three operations round the exact result. -/
theorem addSubMulStoreTheMaskedResult : Obligations.AddSubMulStoreTheMaskedResult := by
  intro s n d src o2 k hd hk
  exact ⟨binaryArith_outcome o2 hd hk (Binary64.add_whole _ _),
    binaryArith_outcome o2 hd hk (Binary64.sub_whole _ _),
    binaryArith_outcome o2 hd hk (Binary64.mul_whole _ _)⟩

/-- Settles O25: the rounded quotient has the floor and the zero test of the exact one. -/
theorem divStoresTheFlooredQuotient : Obligations.DivStoresTheFlooredQuotient := by
  intro s n d src o2 k hd hk hne
  have hpos : 0 < k := Nat.pos_of_ne_zero hne
  have hle : k ≤ 2 ^ 64 := State.operandNat_le hk
  obtain ⟨t, hexec, hout⟩ := exec_div_outcome o2 hd hk hpos
  have ⟨hreg, hzero, hneg, _⟩ := hout
  refine ⟨t, hexec, hout, ?_, ?_, ?_⟩
  · rw [hreg, maskNum_of_trunc (Binary64.trunc_fl_quotient (s.reg_lt d) hpos hle)]
  · rw [hzero, Binary64.isZero_fl_quotient (s.reg_lt d) hpos hle]
  · rw [hneg, Binary64.ltNum_zero_of_notNegative (Binary64.fl_notNegative _ _)]

/-- Settles O27: an integer's expansion is the integer itself. -/
theorem bitwiseActsOnTheUnboundedExpansions : Obligations.BitwiseActsOnTheUnboundedExpansions := by
  intro s n d src o2 k hd hk
  exact ⟨binaryArith_outcome o2 hd hk (bitwiseNum_whole _ _ _),
    binaryArith_outcome o2 hd hk (bitwiseNum_whole _ _ _),
    binaryArith_outcome o2 hd hk (bitwiseNum_whole _ _ _)⟩

/-! ### INC, DEC and NOT -/

/-- Up to 2^53 an outcome is that of exact integer arithmetic (41_arithmetic.md R184). -/
theorem ArithOutcome.exact {z : Int} (h : ArithOutcome s t d (Binary64.ofInt z))
    (hz : z.natAbs ≤ 2 ^ 53) :
    t.reg d = (z % ((2 ^ s.W.bits : Nat) : Int)).toNat ∧ t.FLAGS = decide (z = 0) ∧
      t.FLAG = decide (z < 0) ∧ t.OVERFLOW = decide (2 ^ s.W.bits - 1 < z.natAbs) := by
  obtain ⟨hreg, hzero, hneg, hover, -⟩ := h
  obtain ⟨hmask, hisZero, hlt, habove⟩ := integerResultsAreExactUpTo2Pow53 s.W z hz
  exact ⟨hreg.trans hmask, hzero.trans hisZero, hneg.trans hlt, hover.trans habove⟩

/-- The complement of `x` in an unbounded two's-complement integer, cut to the width. -/
theorem toNat_neg_sub_one_emod (x : Nat) {m : Nat} (hm : 0 < m) :
    ((-(x : Int) - 1) % (m : Int)).toNat = m - 1 - x % m := by
  have hneg : -(x : Int) - 1 = Int.negSucc x := by omega
  rw [hneg, Int.negSucc_emod x (by omega)]
  omega

theorem exec_inc_outcome (s : State) (o1 o2 : Operand) (hd : regOfNumber n = some d) :
    ∃ t, exec (.inc ⟨1, .reg n, o1, o2⟩) s = .next t ∧
      ArithOutcome s t d (Binary64.ofInt ((s.reg d : Int) + 1)) :=
  unaryArith_outcome o1 o2 hd (by rw [one_eq]; exact Binary64.add_whole _ 1)

theorem exec_dec_outcome (s : State) (o1 o2 : Operand) (hd : regOfNumber n = some d) :
    ∃ t, exec (.dec ⟨1, .reg n, o1, o2⟩) s = .next t ∧
      ArithOutcome s t d (Binary64.ofInt ((s.reg d : Int) - 1)) :=
  unaryArith_outcome o1 o2 hd (by rw [one_eq]; exact Binary64.sub_whole _ 1)

theorem exec_not_outcome (s : State) (o1 o2 : Operand) (hd : regOfNumber n = some d) :
    ∃ t, exec (.not ⟨1, .reg n, o1, o2⟩) s = .next t ∧
      ArithOutcome s t d (Binary64.ofInt (-(s.reg d : Int) - 1)) :=
  unaryArith_outcome o1 o2 hd (by rw [one_eq]; exact Binary64.neg_sub_whole _ Nat.one_pos)

/-- Settles O28: one more, one less and the complement of 32 bits are far below 2^53. -/
theorem incDecNotInExactIntegers : Obligations.IncDecNotInExactIntegers := by
  intro s n d o1 o2 hd
  have hlt : s.reg d < 2 ^ 32 := s.reg_lt d
  have hwidth : 0 < 2 ^ s.W.bits := Nat.two_pow_pos _
  refine ⟨?inc, ?dec, ?not⟩
  case inc =>
    obtain ⟨t, hexec, hout⟩ := exec_inc_outcome s o1 o2 hd
    obtain ⟨hreg, hzero, hneg, hover⟩ := hout.exact (by omega)
    refine ⟨t, hexec, hout, ?_, ?_, ?_, ?_⟩
    · rw [hreg, ← Int.natCast_succ, ← Int.natCast_mod, Int.toNat_natCast]
    · exact hzero.trans (decide_eq_false (by omega))
    · exact hneg.trans (decide_eq_false (by omega))
    · exact hover.trans (decide_eq_decide.2 (by omega))
  case dec =>
    obtain ⟨t, hexec, hout⟩ := exec_dec_outcome s o1 o2 hd
    obtain ⟨hreg, hzero, hneg, -⟩ := hout.exact (by omega)
    refine ⟨t, hexec, hout, ?_, ?_, fun h => ?_⟩
    · exact hzero.trans (decide_eq_decide.2 (by omega))
    · exact hneg.trans (decide_eq_decide.2 (by omega))
    · rw [h] at hreg
      exact hreg.trans (toNat_neg_sub_one_emod 0 hwidth)
  case not =>
    obtain ⟨t, hexec, hout⟩ := exec_not_outcome s o1 o2 hd
    obtain ⟨hreg, hzero, hneg, hover⟩ := hout.exact (by omega)
    refine ⟨t, hexec, hout, ?_, ?_, ?_, ?_⟩
    · rw [hreg, toNat_neg_sub_one_emod _ hwidth]
    · exact hzero.trans (decide_eq_false (by omega))
    · exact hneg.trans (decide_eq_true (by omega))
    · exact hover.trans (decide_eq_decide.2 (by omega))

/-! ### ADD, then SUB of the same source -/

theorem regOfNumber_injective {m : BitVec 4} (hn : regOfNumber n = some d)
    (hm : regOfNumber m = some d) : m = n := by
  have hall : ∀ i j : BitVec 4, regOfNumber i = none ∨ regOfNumber i ≠ regOfNumber j ∨ j = i := by
    decide
  rcases hall n m with h | h | h
  · rw [hn] at h
    cases h
  · exact absurd (hn.trans hm.symm) h
  · exact h

/-- A source that is not the destination has the value it had. -/
theorem State.operandNat_of_regsKept (hkept : RegsKeptBut [d] s t) (hd : regOfNumber n = some d)
    (hsrc : src ≠ .reg n) (hk : s.operandNat src = some k) : t.operandNat src = some k := by
  unfold State.operandNat at hk ⊢
  split at hk
  · next m =>
    obtain ⟨q, hq, rfl⟩ := Option.map_eq_some_iff.1 hk
    have hne : q ≠ d := fun h => hsrc (congrArg Operand.reg (regOfNumber_injective hd (h ▸ hq)))
    simp only [hq, Option.map_some, hkept q (mt List.mem_singleton.1 hne)]
  · exact hk
  · cases hk

theorem State.operandNat_reg (s : State) (hd : regOfNumber n = some d) :
    s.operandNat (.reg n) = some (s.reg d) := by
  simp only [State.operandNat, hd, Option.map_some]

theorem ArithOutcome.cursor_and_control (h : ArithOutcome s t d r) :
    t.pc = s.pc + 1 ∧ t.W = s.W ∧ t.runState = s.runState := by
  obtain ⟨-, -, -, -, hpc, -, -, -, -, -, -, -, hW, hrun, -⟩ := h
  exact ⟨hpc, hW, hrun⟩

theorem ArithOutcome.regsKept (h : ArithOutcome s t d r) : RegsKeptBut [d] s t := by
  obtain ⟨-, -, -, -, -, hkept, -⟩ := h
  exact hkept

/-- Wrapping a sum and taking the summand away again. -/
theorem toNat_wrap_sub_emod (x k m : Nat) :
    ((((x + k) % m : Nat) - (k : Int)) % (m : Int)).toNat = x % m := by
  rw [Int.natCast_mod, Int.emod_sub_emod, Int.natCast_add, Int.add_sub_cancel, ← Int.natCast_mod,
    Int.toNat_natCast]

/-- Settles O30: after ADD the source still has its value, or it is the destination itself. -/
theorem addThenSubRestoresTheDestination : Obligations.AddThenSubRestoresTheDestination := by
  intro s n d src o2 k hd hk
  obtain ⟨⟨t, hadd, hsum⟩, -⟩ := addSubMulStoreTheMaskedResult s n d src o2 k hd hk
  obtain ⟨htpc, htW, htrun⟩ := hsum.cursor_and_control
  have hwrap : s.reg d + k ≤ 2 ^ 53 → t.reg d = (s.reg d + k) % 2 ^ s.W.bits := by
    intro hle
    rw [(hsum.exact (by omega)).1, ← Int.natCast_add, ← Int.natCast_mod, Int.toNat_natCast]
  by_cases hsrc : src = .reg n
  · have hsame : t.operandNat src = some (t.reg d) := hsrc ▸ t.operandNat_reg hd
    obtain ⟨-, ⟨u, hsub, hdiff⟩, -⟩ := addSubMulStoreTheMaskedResult t n d src o2 _ hd hsame
    obtain ⟨hupc, -, hurun⟩ := hdiff.cursor_and_control
    refine ⟨t, u, hadd, hsub, htrun, hurun.trans htrun, by rw [hupc, htpc], hsum.1, hwrap,
      absurd hsrc, absurd hsrc, absurd hsrc, fun _ => ?_⟩
    rw [Int.sub_self] at hdiff
    rw [(hdiff.exact (by omega)).1, Int.zero_emod, Int.toNat_zero]
  · have hother : t.operandNat src = some k :=
      State.operandNat_of_regsKept hsum.regsKept hd hsrc hk
    obtain ⟨-, ⟨u, hsub, hdiff⟩, -⟩ := addSubMulStoreTheMaskedResult t n d src o2 k hd hother
    obtain ⟨hupc, -, hurun⟩ := hdiff.cursor_and_control
    have hback : s.reg d + k ≤ 2 ^ 53 → u.reg d = s.reg d % 2 ^ s.W.bits := by
      intro hle
      have hreg := t.reg_le d
      rw [(hdiff.exact (by omega)).1, htW, hwrap hle, toNat_wrap_sub_emod]
    refine ⟨t, u, hadd, hsub, htrun, hurun.trans htrun, by rw [hupc, htpc], hsum.1, hwrap,
      fun _ => htW ▸ hdiff.1, fun _ => hback, fun _ hle hlt => ?_, fun h => absurd h hsrc⟩
    rw [hback hle, Nat.mod_eq_of_lt hlt]

end Sys2Proof.Machine
end

section
/-! Data movement across instructions: a stored register reads back from the same address, because the
store keeps every register that the address is computed from and the width keeps every value up to
MAXVALUE. Then the operands that do not resolve: every meaning is a chain of resolutions, and the first
one that fails gives the error. -/

namespace Sys2Proof.Machine

/-! ### STORE, then LOAD -/

/-- An effective address depends on the scalar registers alone (30_encoding.md R124, R125). -/
theorem State.ea_of_regsKept {s t : State} (hkept : RegsKeptBut [] s t) (o : Operand) :
    t.ea o = s.ea o := by
  have hreg : ∀ r, t.reg r = s.reg r := fun r => hkept r List.not_mem_nil
  have hpart : ∀ p, t.partVal p = s.partVal p := by
    intro p
    cases p with
    | reg n => simp only [State.partVal, hreg]
    | imm p b => rfl
  cases o with
  | mem1 a => exact hpart a
  | mem2 a b => simp only [State.ea, hpart]
  | _ => rfl

/-- A value that fits the width passes the mask unchanged (10_state.md R23). -/
theorem maskNum_ofNat {w : Width} {k : Nat} (h : k ≤ w.maxValue) :
    maskNum w (Binary64.ofNat k) = k := by
  have hlt : k < 2 ^ w.bits := Nat.lt_of_le_sub_one (Nat.two_pow_pos _) h
  have hwidth : 2 ^ w.bits ≤ 2 ^ 32 := Width.bits_le w
  have htrunc : (Binary64.ofNat k).trunc = k := by
    rw [← Binary64.ofInt_natCast]
    exact Binary64.trunc_ofInt (by omega)
  rw [maskNum_of_trunc htrunc, Nat.mod_eq_of_lt hlt]

/-- Settles O37: STORE keeps the registers, so LOAD computes the same address, and the cell there holds
a number that fits the width. -/
theorem storeThenLoadReturnsTheValue : Obligations.StoreThenLoadReturnsTheValue := by
  intro s n m rs rd addr o2 a hwf hn hm ha hlt hfits
  have hsrc : s.valRl (.reg n) = .ok (Binary64.ofNat (s.reg rs)) :=
    State.valRl_eq_ok.2 (.inl ⟨n, rs, rfl, hn, rfl⟩)
  obtain ⟨t, hstore, hcell, -, hregs, -, -, -, -, hparams, -, -, hW, -⟩ :=
    storeWritesTheValueWhole s (.reg n) addr o2 a _ hwf hsrc ha hlt
  have hta : t.ea addr = .ok a := (State.ea_of_regsKept hregs addr).trans ha
  have htlt : a < t.memLen := by rwa [State.memLen, hparams]
  have hnum : t.cell a ≠ .nan := by
    rw [hcell, Binary64.ofNat_exact (s.reg_le rs)]
    exact Binary64.noConfusion
  obtain ⟨u, hload, hreg, -, -, -, hcells, -⟩ := loadMasksTheCell t m rd addr o2 a hm hta htlt hnum
  refine ⟨t, u, hstore, hload, ?_, (hcells a List.not_mem_nil).trans hcell⟩
  rw [hreg, hcell, hW, maskNum_ofNat hfits]

/-! ### The first resolution that fails -/

section

variable {α β γ : Type} {i : Instr} {s : State} {e : Err} {x : Except Err α} {y : Except Err β}
  {z : Except Err γ} {p : α} {q : β}

/-- An instruction that begins with a resolution that fails enters its error (60_exceptions.md R320). -/
theorem exec_of_first_error (hx : x = .error e)
    (hi : ∃ finish : α → Except Err State, exec i s = attempt s (x >>= finish)) :
    exec i s = .next (s.enterError e) := by
  obtain ⟨finish, hexec⟩ := hi
  rw [hexec, hx, error_bind, attempt_error]

theorem exec_of_second_error (hx : x = .ok p) (hy : y = .error e)
    (hi : ∃ finish : α → β → Except Err State,
      exec i s = attempt s (x >>= fun p => y >>= finish p)) :
    exec i s = .next (s.enterError e) := by
  obtain ⟨finish, hexec⟩ := hi
  exact exec_of_first_error hy ⟨finish p, by rw [hexec, hx, ok_bind]⟩

theorem exec_of_third_error (hx : x = .ok p) (hy : y = .ok q) (hz : z = .error e)
    (hi : ∃ finish : α → β → γ → Except Err State,
      exec i s = attempt s (x >>= fun p => y >>= fun q => z >>= finish p q)) :
    exec i s = .next (s.enterError e) := by
  obtain ⟨finish, hexec⟩ := hi
  exact exec_of_second_error hy hz ⟨finish p, by rw [hexec, hx, ok_bind]⟩

end

section

variable {s : State} {a b c : Operand} {e : Err}

/-- MOV takes a memory reference as a destination in memory, whether or not it resolves
(42_data_movement.md R201). -/
theorem exec_mov_of_isMem (h : a.isMem = true) :
    exec (.mov ⟨2, a, b, c⟩) s = attempt s (movToMemory ⟨2, a, b, c⟩ s) :=
  congrArg (attempt s) (if_pos h)

/-- MOV takes every other destination as a register (42_data_movement.md R201). -/
theorem exec_mov_of_not_isMem (h : a.isMem = false) :
    exec (.mov ⟨2, a, b, c⟩) s = attempt s (movToRegister ⟨2, a, b, c⟩ s) :=
  congrArg (attempt s) (if_neg (Bool.eq_false_iff.1 h))

/-- An unreadable source of MOV is found after the destination has resolved (42_data_movement.md
R201). -/
theorem exec_mov_of_source_error
    (ha : (∃ x, s.ea a = .ok x ∧ x < s.memLen) ∨ ∃ r, regOf a = .ok r)
    (hb : s.valAny b = .error e) : exec (.mov ⟨2, a, b, c⟩) s = .next (s.enterError e) := by
  rcases ha with ⟨x, hx, hlt⟩ | ⟨r, hr⟩
  · exact exec_mov_mem_of_source_error hx hlt hb
  · obtain ⟨n, rfl, hn⟩ := regOf_eq_ok.1 hr
    exact exec_mov_reg_of_source_error hn hb

/-- An instruction on three vector registers resolves them left to right (45_simd.md R272 to R274). -/
theorem exec_of_vreg_error {i : Instr}
    (h : vregOf a = .error e ∨ (∃ r, vregOf a = .ok r) ∧ vregOf b = .error e ∨
      (∃ r, vregOf a = .ok r) ∧ (∃ r, vregOf b = .ok r) ∧ vregOf c = .error e)
    (hi : ∃ finish : VReg → VReg → VReg → Except Err State, exec i s =
      attempt s (vregOf a >>= fun p => vregOf b >>= fun q => vregOf c >>= finish p q)) :
    exec i s = .next (s.enterError e) := by
  obtain ⟨finish, hexec⟩ := hi
  rcases h with ha | ⟨⟨p, ha⟩, hb⟩ | ⟨⟨p, ha⟩, ⟨q, hb⟩, hc⟩
  · exact exec_of_first_error ha ⟨_, hexec⟩
  · exact exec_of_second_error ha hb ⟨_, hexec⟩
  · exact exec_of_third_error ha hb hc ⟨finish, hexec⟩

end

/-- Settles O36: behind its operand count, which is right here, each meaning begins with the resolution
of its operands in their order; `rfl` reads that off the definition. -/
theorem unresolvedOperandsEnterTheirError : Obligations.UnresolvedOperandsEnterTheirError := by
  intro s a b c e
  refine ⟨?movMem, ?movReg, exec_mov_of_source_error, ?reg, ?regAddr, ?value, ?valueAddr, ?vreg,
    ?vregAddr, ?vregs⟩
  case movMem => exact fun hmem ha => exec_of_first_error ha ⟨_, exec_mov_of_isMem hmem⟩
  case movReg => exact fun hmem ha => exec_of_first_error ha ⟨_, exec_mov_of_not_isMem hmem⟩
  case reg => exact fun ha => ⟨exec_of_first_error ha ⟨_, rfl⟩, exec_of_first_error ha ⟨_, rfl⟩⟩
  case regAddr => exact fun r ha hb => exec_of_second_error ha hb ⟨_, rfl⟩
  case value =>
    exact fun ha => ⟨exec_of_first_error ha ⟨_, rfl⟩, exec_of_first_error ha ⟨_, rfl⟩,
      exec_of_first_error ha ⟨_, rfl⟩⟩
  case valueAddr => exact fun v ha hb => exec_of_second_error ha hb ⟨_, rfl⟩
  case vreg => exact fun ha => ⟨exec_of_first_error ha ⟨_, rfl⟩, exec_of_first_error ha ⟨_, rfl⟩⟩
  case vregAddr =>
    exact fun r ha hb => ⟨exec_of_second_error ha hb ⟨_, rfl⟩, exec_of_second_error ha hb ⟨_, rfl⟩⟩
  case vregs =>
    exact fun h => ⟨exec_of_vreg_error h ⟨_, rfl⟩, exec_of_vreg_error h ⟨_, rfl⟩,
      exec_of_vreg_error h ⟨_, rfl⟩⟩

end Sys2Proof.Machine
end

section
/-! The stack unit and the calls: pushing from an SP above MEMLEN finds no cell, and a cell that holds no
statement index is no return address. Then DUP, SWAP and ROT in their bounds, PUSH and then POP, and the
checks that stop a stack instruction, CALL or RET. -/

namespace Sys2Proof

/-- The values that are the natural number `n`: only zero has two signs (00_scope.md R9). -/
theorem Binary64.toNat?_eq_some {v : Binary64} {n : Nat} :
    v.toNat? = some n ↔ ∃ neg, (neg = false ∨ n = 0) ∧ v = .fin neg (unit * n) := by
  rcases Nat.eq_zero_or_pos n with rfl | hn
  · constructor
    · intro h
      cases v with
      | nan => cases h
      | inf neg => cases h
      | fin neg m =>
        refine ⟨neg, .inr rfl, ?_⟩
        by_cases hm : m = 0
        · rw [hm, Nat.mul_zero]
        · simp only [toNat?, hm, if_false, Option.ite_none_left_eq_some, Option.ite_none_right_eq_some,
            Option.some.injEq] at h
          obtain ⟨-, hdvd, hdiv⟩ := h
          rw [← hdiv, Nat.mul_div_cancel' (Nat.dvd_of_mod_eq_zero hdvd)]
    · rintro ⟨neg, -, rfl⟩
      rfl
  · rw [toNat?_eq_some_of_pos hn]
    constructor
    · exact fun h => ⟨false, .inl rfl, h⟩
    · rintro ⟨neg, rfl | h0, rfl⟩
      · rfl
      · omega

namespace Machine

variable {s : State} {o0 o1 o2 : Operand}

/-! ### Completion in bounds -/

theorem exec_dup (hpos : 0 < s.sp) (hlt : s.sp < s.memLen) :
    exec (.dup ⟨0, o0, o1, o2⟩) s =
      .next ((s.putCell (s.sp - 1) (s.cell s.sp)).setSP (s.sp - 1)).advance := by
  refine attempt_of_ok ?_
  simp only [bind_eq_ok, State.memRead_eq_ok, State.pushCell_eq_ok]
  exact ⟨(), rfl, (), require_decide _ hlt, (), require_decide _ hpos, _, ⟨hlt, rfl⟩, _,
    ⟨by omega, rfl⟩, rfl⟩

theorem exec_swap (h : s.sp + 2 ≤ s.memLen) :
    exec (.swap ⟨0, o0, o1, o2⟩) s =
      .next ((s.putCell s.sp (s.cell (s.sp + 1))).putCell (s.sp + 1) (s.cell s.sp)).advance := by
  have h0 : s.sp < s.memLen := by omega
  have h1 : s.sp + 1 < s.memLen := by omega
  refine attempt_of_ok ?_
  simp only [bind_eq_ok, State.memRead_eq_ok, State.memWrite_eq_ok]
  exact ⟨(), rfl, (), require_decide _ h, _, ⟨h0, rfl⟩, _, ⟨h1, rfl⟩, _, ⟨h0, rfl⟩, _, ⟨h1, rfl⟩, rfl⟩

theorem exec_rot (h : s.sp + 3 ≤ s.memLen) :
    exec (.rot ⟨0, o0, o1, o2⟩) s =
      .next (((s.putCell s.sp (s.cell (s.sp + 1))).putCell (s.sp + 1) (s.cell (s.sp + 2))).putCell
        (s.sp + 2) (s.cell s.sp)).advance := by
  have h0 : s.sp < s.memLen := by omega
  have h1 : s.sp + 1 < s.memLen := by omega
  have h2 : s.sp + 2 < s.memLen := by omega
  refine attempt_of_ok ?_
  simp only [bind_eq_ok, State.memRead_eq_ok, State.memWrite_eq_ok]
  exact ⟨(), rfl, (), require_decide _ h, _, ⟨h0, rfl⟩, _, ⟨h1, rfl⟩, _, ⟨h2, rfl⟩, _, ⟨h0, rfl⟩, _,
    ⟨h1, rfl⟩, _, ⟨h2, rfl⟩, rfl⟩

/-- Settles O40: the top cell is pushed. -/
theorem dupCopiesTheTopCell : Obligations.DupCopiesTheTopCell := by
  intro s o0 o1 o2 hwf hpos hlt
  exact ⟨_, exec_dup hpos hlt, State.putCell_cell_same hwf _ _, s.sp_push _ _, rfl,
    (FrameBut.push s _ _ _).trans (.advance _)⟩

/-- Settles O41: both read the cells before they write them, and they write different cells. -/
theorem swapAndRotPermuteTheTopCells : Obligations.SwapAndRotPermuteTheTopCells := by
  intro s o0 o1 o2 hwf
  refine ⟨fun h => ⟨_, exec_swap h, ?swapTop, ?swapNext, rfl, ?swapFrame⟩,
    fun h => ⟨_, exec_rot h, ?rotTop, ?rotNext, ?rotThird, rfl, ?rotFrame⟩⟩
  case swapTop =>
    exact (State.putCell_cell_other _ _ (by omega)).trans (State.putCell_cell_same hwf _ _)
  case swapNext => exact State.putCell_cell_same (State.putCell_wf hwf _ _) _ _
  case swapFrame => exact ((FrameBut.putCell s _ _).trans (.putCell _ _ _)).trans (.advance _)
  case rotTop =>
    exact ((State.putCell_cell_other _ _ (by omega)).trans
      (State.putCell_cell_other _ _ (by omega))).trans (State.putCell_cell_same hwf _ _)
  case rotNext =>
    exact (State.putCell_cell_other _ _ (by omega)).trans
      (State.putCell_cell_same (State.putCell_wf hwf _ _) _ _)
  case rotThird =>
    exact State.putCell_cell_same (State.putCell_wf (State.putCell_wf hwf _ _) _ _) _ _
  case rotFrame =>
    exact (((FrameBut.putCell s _ _).trans (.putCell _ _ _)).trans (.putCell _ _ _)).trans (.advance _)

/-- Settles O43: PUSH leaves the value whole in the cell that SP then names, which POP reads through the
mask of the same width. -/
theorem pushThenPopRestoresTheStack : Obligations.PushThenPopRestoresTheStack := by
  intro s n d src o1 o2 v hlegal hwf hd hv hpos hle
  obtain ⟨t, hpush, hcell, hsp, -, -, -, -, -, -, hparams, -, -, hW, -⟩ :=
    pushWritesBelowTheStackPointer s src o1 o2 v hwf hv hpos hle
  have hlt : t.sp < t.memLen := by
    rw [hsp, State.memLen, hparams, ← State.memLen]
    omega
  obtain ⟨u, hpop, hreg, hspUp, -⟩ :=
    popReadsTheTopCell t n d o1 o2 (by rwa [hparams]) hd hlt
  have hmask : u.reg d = maskNum s.W v := by rw [hreg, hW, hsp, hcell]
  refine ⟨t, u, hpush, hpop, fun hne => ?_, hmask, fun k hk hvk => ?_⟩
  · rw [hspUp hne, hsp]
    omega
  · rw [hmask, hvk, maskNum_ofNat hk]

/-! ### The checks that fail -/

/-- A test that does not hold raises its error. -/
theorem require_decide_of_not {p : Prop} [Decidable p] (e : Err) (h : ¬ p) :
    require (decide p) e = .error e := by
  rw [decide_eq_false h, require_false]

/-- With SP above MEMLEN the cell below it is outside memory (43_stack.md R221). -/
theorem State.pushCell_of_lt (v : Binary64) (h : s.memLen < s.sp) :
    s.pushCell v = .error .invalidAddress := by
  rw [State.pushCell, State.memWrite_of_le v (by omega), error_bind]

/-- PUSH on an operand that resolves. -/
theorem exec_push_resolved {src : Operand} {v : Binary64} (hv : s.valRl src = .ok v) :
    exec (.push ⟨1, src, o1, o2⟩) s = attempt s (require (decide (0 < s.sp)) .stackOverflow >>=
      fun _ => s.pushCell v >>= fun t => .ok t.advance) := by
  change attempt s (s.valRl src >>= _) = _
  rw [hv, ok_bind]

/-- Settles O42: each check is met before anything is written. -/
theorem stackBoundsAndTheirErrors : Obligations.StackBoundsAndTheirErrors := by
  intro s n d src o0 o1 o2 v hd hv
  refine ⟨fun h => ?push, fun h => ?pushAbove, fun h => ⟨?pop, ?dup⟩, fun h hmem => ?dupAtZero,
    fun h => ?swap, fun h => ?rot⟩
  case push =>
    exact exec_of_first_error (require_decide_of_not _ (by omega)) ⟨_, exec_push_resolved hv⟩
  case pushAbove =>
    exact exec_of_second_error (require_decide _ (by omega)) (State.pushCell_of_lt v h)
      ⟨_, exec_push_resolved hv⟩
  case pop =>
    exact exec_of_second_error (regOf_reg hd) (require_decide_of_not _ (by omega)) ⟨_, rfl⟩
  case dup => exact exec_of_first_error (require_decide_of_not _ (by omega)) ⟨_, rfl⟩
  case dupAtZero =>
    exact exec_of_second_error (require_decide _ (by omega)) (require_decide_of_not _ (by omega))
      ⟨_, rfl⟩
  case swap => exact exec_of_first_error (require_decide_of_not _ (by omega)) ⟨_, rfl⟩
  case rot => exact exec_of_first_error (require_decide_of_not _ (by omega)) ⟨_, rfl⟩

/-! ### CALL and RET -/

/-- A value that is no integer from 0 to PROGLEN is no return address (44_control_flow.md R260). -/
theorem State.returnTarget_eq_error {v : Binary64}
    (h : ∀ neg n, n ≤ s.progLen → (neg = false ∨ n = 0) → v ≠ .fin neg (Binary64.unit * n)) :
    s.returnTarget v = .error .invalidReturnAddress := by
  unfold State.returnTarget
  split
  · next n hn =>
    obtain ⟨neg, hsign, hv⟩ := Binary64.toNat?_eq_some.1 hn
    exact if_neg fun hle => h neg n hle hsign hv
  · rfl

/-- RET with a cell at SP. -/
theorem exec_ret_of_lt (h : s.sp < s.memLen) :
    exec (.ret ⟨0, o0, o1, o2⟩) s = attempt s (s.returnTarget (s.cell s.sp) >>=
      fun n => .ok ((s.setSP (s.sp + 1)).setPc n)) := by
  change attempt s (require (decide (s.sp < s.memLen)) .stackUnderflow >>= _) = _
  rw [require_decide _ h, ok_bind, State.memRead_of_lt h, ok_bind]

/-- Settles O47: the checks in the order of the meanings, the one of SP first. -/
theorem callAndRetErrorsLeaveEverything : Obligations.CallAndRetErrorsLeaveEverything := by
  intro s id o0 o1 o2
  refine ⟨fun h => ?call, fun hpos hlabel => ?callLabel, fun h hlabel => ?callAbove, fun h => ?ret,
    fun hlt hcell => ?retTarget⟩
  case call => exact exec_of_first_error (require_decide_of_not _ (by omega)) ⟨_, rfl⟩
  case callLabel =>
    exact exec_of_second_error (require_decide _ hpos) (State.targetOf_eq_error.2 ⟨hlabel, rfl⟩)
      ⟨_, rfl⟩
  case callAbove =>
    obtain ⟨target, htarget⟩ := Option.ne_none_iff_exists'.1 hlabel
    exact exec_of_third_error (require_decide _ (by omega))
      (State.targetOf_eq_ok.2 ⟨id, rfl, htarget⟩) (State.pushCell_of_lt _ h) ⟨_, rfl⟩
  case ret => exact exec_of_first_error (require_decide_of_not _ (by omega)) ⟨_, rfl⟩
  case retTarget =>
    exact exec_of_first_error (State.returnTarget_eq_error hcell) ⟨_, exec_ret_of_lt hlt⟩

end Machine

end Sys2Proof
end

section
/-! Control flow: the nine jumps are one meaning over their conditions, and a RET whose top cell holds a
statement index completes, as it does behind the CALL that wrote the cell. -/

namespace Sys2Proof.Machine

variable {s t : State} {o0 o1 o2 : Operand}

/-! ### The jumps -/

/-- Each row of the table is `cond_jump` over its condition (44_control_flow.md R241, R242). -/
theorem exec_of_mem_jumpTable {p : (Operands → Instr) × (Bool → Bool → Bool)} (hp : p ∈ jumpTable)
    (o : Operands) (s : State) :
    exec (p.1 o) s = attempt s (condJump (p.2 s.FLAGS s.FLAG) o s) := by
  simp only [jumpTable, List.mem_cons, List.not_mem_nil, or_false] at hp
  rcases hp with rfl | rfl | rfl | rfl | rfl | rfl | rfl | rfl | rfl <;> rfl

theorem condJump_untaken (s : State) : condJump false ⟨1, o0, o1, o2⟩ s = .ok s.advance := rfl

theorem condJump_taken (s : State) :
    condJump true ⟨1, o0, o1, o2⟩ s = s.targetOf o0 >>= fun t => .ok (s.setPc t) := rfl

/-- Settles O44: the label is resolved when the condition holds, and only then. -/
theorem jumpsFollowTheConditionTable : Obligations.JumpsFollowTheConditionTable := by
  intro p hp s id o0 o1 o2
  refine ⟨fun hc => ?untaken, fun hc => ⟨fun t ht => ?taken, fun hlabel => ?unresolved⟩⟩ <;>
    rw [exec_of_mem_jumpTable hp, hc]
  case untaken => rw [condJump_untaken, attempt_ok]; rfl
  case taken =>
    rw [condJump_taken, State.targetOf_eq_ok.2 ⟨id, rfl, ht⟩, ok_bind, attempt_ok]; rfl
  case unresolved =>
    rw [condJump_taken, State.targetOf_eq_error.2 ⟨hlabel, rfl⟩, error_bind, attempt_error]

/-! ### RET -/

/-- RET on a cell that holds a statement index, or PROGLEN (44_control_flow.md R260). -/
theorem exec_ret {n : Nat} (hlt : s.sp < s.memLen) (hcell : (s.cell s.sp).toNat? = some n)
    (hle : n ≤ s.progLen) :
    exec (.ret ⟨0, o0, o1, o2⟩) s = .next ((s.setSP (s.sp + 1)).setPc n) := by
  rw [exec_ret_of_lt hlt, State.returnTarget_eq_ok.2 ⟨hcell, hle⟩, ok_bind, attempt_ok]

/-- The update of SP that a pop makes. -/
theorem State.sp_pop (hlegal : s.params.Legal) (hlt : s.sp < s.memLen) :
    (s.setSP (s.sp + 1)).sp = s.sp + 1 := by
  obtain ⟨-, hmemLen, -⟩ := hlegal
  exact (State.setSP_reg s _ (lt_of_le_of_lt hlt hmemLen) .sp).trans (if_pos rfl)

/-- Settles O46: the cursor is the number the top cell holds, and only SP and the cursor are written. -/
theorem retJumpsToThePoppedIndex : Obligations.RetJumpsToThePoppedIndex := by
  intro s o0 o1 o2 neg n hlegal hlt hcell hsign hle
  have hindex : (s.cell s.sp).toNat? = some n := Binary64.toNat?_eq_some.2 ⟨neg, hsign, hcell⟩
  exact ⟨_, exec_ret hlt hindex hle, State.sp_pop hlegal hlt, rfl,
    (FrameBut.setSP s _).trans (.setPc _ n)⟩

/-! ### CALL and then RET -/

/-- An instruction that leaves the run state of a safe state has completed: an error stops the run
(60_exceptions.md R320). -/
theorem effect_of_runState_kept {i : Instr} (h : exec i s = .next t)
    (hrun : t.runState = s.runState) (hsafe : s.Safe) : Effect s (shapeOf i) t := by
  rcases exec_effect h with ⟨e, rfl⟩ | heffect
  · exact absurd hrun.symm hsafe
  · exact heffect

/-- The stack behind a CALL that has completed (44_control_flow.md R258). -/
theorem Effect.call_stack (hwf : Memory.wf s.mem) (h : Effect s .call t) :
    0 < s.sp ∧ s.sp ≤ s.memLen ∧ t.sp = s.sp - 1 ∧
      t.cell (s.sp - 1) = Binary64.ofNat (s.pc + 1) := by
  cases h with
  | call id target hpos hlt htarget =>
    exact ⟨hpos, by omega, s.sp_push _ _, State.putCell_cell_same hwf _ _⟩

/-- The index after a statement of the program is a whole number that a cell holds exactly. -/
theorem State.Inv.ofNat_next (h : s.Inv) (hpc : s.pc < s.progLen) :
    Binary64.ofNat (s.pc + 1) = .fin false (Binary64.unit * (s.pc + 1 : Nat)) := by
  obtain ⟨-, -, hprogMax, -⟩ := h.params
  have hprogLen := h.progLen
  exact Binary64.ofNat_exact (by omega)

/-- Settles O48: the return cell holds the index of the statement after the CALL, which is at most
PROGLEN because the CALL stood inside the program. -/
theorem retReturnsAfterItsCall : Obligations.RetReturnsAfterItsCall := by
  intro s t m id o0 o1 o2 hinv hpc hcall hrun hsafe hparams hprog hsp hcell
  have heffect : Effect s .call t := effect_of_runState_kept hcall hrun hsafe
  obtain ⟨hpos, hle, htsp, htcell⟩ := heffect.call_stack hinv.memory
  obtain ⟨htprog, -, -, htparams, -⟩ := heffect.programKept
  have hmparams : m.params = s.params := hparams.trans htparams
  have hmsp : m.sp = s.sp - 1 := hsp.trans htsp
  have hlt : m.sp < m.memLen := by
    rw [State.memLen, hmparams, ← State.memLen]
    omega
  have hindex : m.cell m.sp = .fin false (Binary64.unit * (s.pc + 1 : Nat)) := by
    rw [hsp, hcell, htsp, htcell, hinv.ofNat_next hpc]
  have hnext : s.pc + 1 ≤ m.progLen := by
    rwa [State.progLen, hprog, htprog]
  obtain ⟨u, hret, husp, hupc, -⟩ := retJumpsToThePoppedIndex m o0 o1 o2 false (s.pc + 1)
    (hmparams ▸ hinv.params) hlt hindex (.inl rfl) hnext
  exact ⟨u, hret, hupc, by omega⟩

end Sys2Proof.Machine
end

section
/-! The vector unit: the lane operations row by row of the table (45_simd.md R271), the zero test of a
divisor register lane by lane, and the lane-wise instructions on registers that resolve. -/

namespace Sys2Proof

namespace Binary64

/-! ### The rows of the table -/

theorem nan_add (a : Binary64) : add .nan a = .nan := rfl

theorem add_nan (a : Binary64) : add a .nan = .nan := by cases a <;> rfl

theorem nan_mul (a : Binary64) : mul .nan a = .nan := rfl

theorem mul_nan (a : Binary64) : mul a .nan = .nan := by cases a <;> rfl

theorem nan_div (a : Binary64) : div .nan a = .nan := rfl

theorem div_nan (a : Binary64) : div a .nan = .nan := by cases a <;> rfl

section

variable (p q : Bool) (m : Nat)

theorem inf_add_fin : add (.inf p) (.fin q m) = .inf p := rfl

theorem fin_add_inf : add (.fin q m) (.inf p) = .inf p := rfl

theorem inf_add_self : add (.inf p) (.inf p) = .inf p := if_pos rfl

theorem inf_mul_inf : mul (.inf p) (.inf q) = .inf (p != q) := rfl

theorem inf_mul_zero : mul (.inf p) (.fin q 0) = .nan := rfl

theorem zero_mul_inf : mul (.fin q 0) (.inf p) = .nan := rfl

theorem inf_div_inf : div (.inf p) (.inf q) = .nan := rfl

theorem inf_div_fin : div (.inf p) (.fin q m) = .inf (p != q) := rfl

theorem fin_div_inf : div (.fin q m) (.inf p) = .fin (q != p) 0 := rfl

theorem inf_mul_fin {m : Nat} (hm : m ≠ 0) : mul (.inf p) (.fin q m) = .inf (p != q) := if_neg hm

theorem fin_mul_inf {m : Nat} (hm : m ≠ 0) : mul (.fin q m) (.inf p) = .inf (q != p) := if_neg hm

end

theorem mul_fin_false (m n : Nat) : mul (.fin false m) (.fin false n) = fl false (m * n) unit := rfl

theorem div_fin_false (m : Nat) {n : Nat} (hn : n ≠ 0) :
    div (.fin false m) (.fin false n) = fl false (m * unit) n := by
  rw [Nat.mul_comm]
  exact if_neg hn

/-- The zeros are the finite values of magnitude 0, of either sign (45_simd.md R274). -/
theorem isZero_iff {v : Binary64} : v.isZero = true ↔ ∃ neg, v = .fin neg 0 := by
  cases v <;> simp [isZero]

end Binary64

/-- Settles O23: NaN, then the infinities, then the finite values, row by row. -/
theorem laneArithmeticFollowsTheTable : Obligations.LaneArithmeticFollowsTheTable := by
  refine ⟨fun a => ?nan, fun p q m => ?inf, fun m n => ?fin⟩
  case nan =>
    exact ⟨Binary64.nan_add a, Binary64.add_nan a, Binary64.nan_mul a, Binary64.mul_nan a,
      Binary64.nan_div a, Binary64.div_nan a⟩
  case inf =>
    exact ⟨Binary64.inf_add_fin p q m, Binary64.fin_add_inf p q m, Binary64.inf_add_self p,
      Binary64.inf_mul_fin p q, Binary64.fin_mul_inf p q, Binary64.inf_mul_inf p q,
      Binary64.inf_mul_zero p q, Binary64.zero_mul_inf p q,
      Binary64.isZero_iff.2 ⟨_, Binary64.fin_div_inf p q m⟩, fun _ => Binary64.inf_div_fin p q m,
      Binary64.inf_div_inf p q⟩
  case fin =>
    exact ⟨Binary64.add_fin_false m n, Binary64.mul_fin_false m n, Binary64.div_fin_false m⟩

namespace Machine

/-! ### The divisor check -/

theorem Lanes.any_isZero {l : Lanes} :
    l.any Binary64.isZero = true ↔ ∃ x ∈ [l.l0, l.l1, l.l2, l.l3], ∃ neg, x = .fin neg 0 := by
  simp only [Lanes.any, Bool.or_eq_true, Binary64.isZero_iff, List.exists_mem_cons_iff,
    List.not_mem_nil, false_and, exists_false, or_false, or_assoc]

/-! ### Lane-wise instructions -/

variable {s : State} {nd na nb : BitVec 4} {d a b : VReg}

/-- The sources are read before the destination is written, so equal registers are no special case
(45_simd.md R270). -/
theorem laneWise_resolved (f : Binary64 → Binary64 → Binary64) (hd : vregOfNumber nd = some d)
    (ha : vregOfNumber na = some a) (hb : vregOfNumber nb = some b) :
    laneWise f ⟨3, .vreg nd, .vreg na, .vreg nb⟩ s =
      .ok (s.setVec d (Lanes.map2 f (s.vec a) (s.vec b))).advance := by
  simp only [laneWise, bind_eq_ok]
  exact ⟨(), rfl, d, vregOf_vreg hd, a, vregOf_vreg ha, b, vregOf_vreg hb, rfl⟩

theorem exec_vdiv_resolved (hd : vregOfNumber nd = some d) (ha : vregOfNumber na = some a)
    (hb : vregOfNumber nb = some b) :
    exec (.vdiv ⟨3, .vreg nd, .vreg na, .vreg nb⟩) s =
      attempt s (require (!(s.vec b).any Binary64.isZero) .divisionByZero >>= fun _ =>
        .ok (s.setVec d (Lanes.map2 Binary64.div (s.vec a) (s.vec b))).advance) := by
  refine congrArg (attempt s) ?_
  change (vregOf (.vreg nd) >>= fun d => vregOf (.vreg na) >>= fun a => vregOf (.vreg nb) >>= _) = _
  rw [vregOf_vreg hd, ok_bind, vregOf_vreg ha, ok_bind, vregOf_vreg hb, ok_bind]

/-- What the commit of a lane-wise result leaves (45_simd.md R270, R284). -/
theorem State.setVec_advance_outcome (s : State) (d : VReg) (l : Lanes) :
    (s.setVec d l).advance.vec d = l ∧ (s.setVec d l).advance.pc = s.pc + 1 ∧
      FrameBut [] [d] [] s (s.setVec d l).advance :=
  ⟨(State.setVec_vec s d d l).trans (if_pos rfl), rfl, (FrameBut.setVec s d l).trans (.advance _)⟩

/-- Settles O49: both instructions are one lane-wise commit. -/
theorem vaddAndVmulActLaneByLane : Obligations.VaddAndVmulActLaneByLane := by
  intro s nd na nb d a b hd ha hb
  exact ⟨⟨_, attempt_of_ok (laneWise_resolved _ hd ha hb), s.setVec_advance_outcome d _⟩,
    ⟨_, attempt_of_ok (laneWise_resolved _ hd ha hb), s.setVec_advance_outcome d _⟩⟩

/-- Settles O50: the divisor check passes exactly when no lane is a zero, and comes before the commit. -/
theorem vdivDividesAllLanesOrNone : Obligations.VdivDividesAllLanesOrNone := by
  intro s nd na nb d a b hd ha hb
  refine ⟨fun hnone => ⟨_, ?divides, s.setVec_advance_outcome d _⟩, fun hzero => ?raises⟩
  case divides =>
    have hcheck : (s.vec b).any Binary64.isZero = false := Bool.eq_false_iff.2 fun h =>
      have ⟨l, hl, neg, hlane⟩ := Lanes.any_isZero.1 h
      hnone l hl neg hlane
    rw [exec_vdiv_resolved hd ha hb, hcheck]
    rfl
  case raises =>
    rw [exec_vdiv_resolved hd ha hb, Lanes.any_isZero.2 hzero]
    rfl

end Machine

end Sys2Proof
end

section
/-! Exceptions: every check that fails is the entry into an error, so each meaning and each step answers
a next state, and of the completed effects END alone moves `run_state` and none writes the error
registers. -/

namespace Sys2Proof.Machine

variable {s t : State} {i : Instr}

/-! ### No fault and no refusal -/

/-- An instruction commits or enters its error, and both are next states (60_exceptions.md R320). -/
theorem exists_attempt_eq_next (s : State) (r : Except Err State) : ∃ t, attempt s r = .next t := by
  cases r with
  | ok t => exact ⟨t, attempt_ok s t⟩
  | error e => exact ⟨s.enterError e, attempt_error s e⟩

theorem exists_exec_eq_next (i : Instr) (s : State) : ∃ t, exec i s = .next t := by
  cases hops : i.operands? with
  | some o =>
    obtain ⟨rest, hexec⟩ := exec_checks_arity hops s
    rw [hexec]
    exact exists_attempt_eq_next s _
  | none =>
    rcases operands?_eq_none hops with rfl | ⟨id, rfl⟩ | rfl
    · exact ⟨s.advance, rfl⟩
    · exact ⟨s.advance, rfl⟩
    · exact ⟨s.complete, rfl⟩

/-- One of the ways through the algorithm of 40_sequencer.md R142 is open from every state. -/
theorem exists_stepAnswers (hook : Nat → Bool) (s : State) : ∃ t, StepAnswers hook s t := by
  cases hs : s.halted with
  | true => exact ⟨_, .halted hs⟩
  | false =>
    cases hp : s.pausesHere hook with
    | true => exact ⟨_, .pause hs hp⟩
    | false =>
      match hf : s.beginStep.fetch with
      | none => exact ⟨_, .atEnd hs hp hf⟩
      | some (.error r) => exact ⟨_, .unknown hs hp r hf⟩
      | some (.ok i) =>
        obtain ⟨u, hu⟩ := exists_exec_eq_next i s.beginStep
        exact ⟨_, .ran hs hp i u hf hu⟩

/-- Settles O14: some answer of a step is open, and each is a next state. -/
theorem everyStepAnswersANextState : Obligations.EveryStepAnswersANextState := by
  intro hook s
  obtain ⟨t, ht⟩ := exists_stepAnswers hook s
  exact ⟨t, ht.stepWith_eq⟩

/-! ### Precise errors -/

/-- A completed instruction keeps `run_state` and the error registers, or it is END
(40_sequencer.md R147). -/
theorem Effect.runState_and_errors_kept {k : Shape} (h : Effect s k t) :
    (t.runState = s.runState ∧ t.errCode = s.errCode ∧ t.errLine = s.errLine) ∨
      (k = .halt ∧ t = s.complete) := by
  cases h with
  | halt => exact .inr ⟨rfl, rfl⟩
  | _ => exact .inl ⟨rfl, rfl, rfl⟩

theorem eq_halt_of_shapeOf (h : shapeOf i = .halt) : i = .halt := by
  cases i with
  | halt => rfl
  | _ => cases h

/-- Settles O15: the answer is the entry into an error or a completed effect. -/
theorem errorsArePrecise : Obligations.ErrorsArePrecise := by
  intro i s t h
  rcases exec_effect h with ⟨e, rfl⟩ | heffect
  · exact .inr (.inr ⟨e, rfl⟩)
  · rcases heffect.runState_and_errors_kept with hkept | ⟨hshape, rfl⟩
    · exact .inl hkept
    · exact .inr (.inl ⟨eq_halt_of_shapeOf hshape, rfl⟩)

end Sys2Proof.Machine
end

section
/-! What an instruction may raise: a computation is held to a set of errors check by check, each shared
check by its error lemma, and so each meaning by the checks that it makes. -/

namespace Sys2Proof.Machine

/-! ### Computations held to a set of errors -/

/-- Every error of the computation is one that `p` allows, and a value it gives satisfies `q`. -/
structure Obeys {α : Type} (p : Err → Bool) (q : α → Prop) (x : Except Err α) : Prop where
  errors : ∀ e, x = .error e → p e = true
  value : ∀ a, x = .ok a → q a

/-- The errors alone. -/
def RaisesOnly {α : Type} (p : Err → Bool) (x : Except Err α) : Prop := Obeys p (fun _ => True) x

/-- A whole meaning from `s`: it completes with the error register as it was. -/
def CompletesFrom (s : State) (p : Err → Bool) (r : Except Err State) : Prop :=
  Obeys p (fun t => t.errCode = s.errCode) r

section

variable {α β : Type} {p : Err → Bool} {q : α → Prop} {q' : β → Prop} {s : State} {a : Nat}
  {o : Operand}

theorem Obeys.ok {v : α} (h : q v) : Obeys p q (.ok v) :=
  ⟨fun _ he => (nomatch he), fun _ ha => Except.ok.inj ha ▸ h⟩

theorem Obeys.error {e : Err} (h : p e = true) : Obeys p q (.error e) :=
  ⟨fun _ he => Except.error.inj he ▸ h, fun _ ha => nomatch ha⟩

theorem Obeys.bind {x : Except Err α} {f : α → Except Err β} (hx : Obeys p q x)
    (hf : ∀ v, q v → Obeys p q' (f v)) : Obeys p q' (x >>= f) := by
  cases x with
  | error e => exact .error (hx.errors e rfl)
  | ok v => exact hf v (hx.value v rfl)

theorem RaisesOnly.of_error {x : Except Err α} (h : ∀ e, x = .error e → p e = true) :
    RaisesOnly p x := ⟨h, fun _ _ => trivial⟩

theorem RaisesOnly.of_register_or_operand {x : Except Err α} {A B : Prop}
    (hr : p .invalidRegister = true) (ho : p .invalidOperand = true)
    (h : ∀ e, x = .error e → A ∧ e = .invalidRegister ∨ B ∧ e = .invalidOperand) :
    RaisesOnly p x := .of_error fun e he => by
  obtain ⟨-, rfl⟩ | ⟨-, rfl⟩ := h e he
  · exact hr
  · exact ho

/-! ### The shared checks -/

theorem require_obeys {c : Bool} {e : Err} (h : p e = true) :
    Obeys p (fun _ => c = true) (require c e) := by
  cases c with
  | false => exact .error h
  | true => exact .ok rfl

theorem require_decide_obeys {c : Prop} [Decidable c] {e : Err} (h : p e = true) :
    Obeys p (fun _ => c) (require (decide c) e) :=
  ⟨(require_obeys h).errors, fun _ ha => of_decide_eq_true (require_eq_ok.1 ha)⟩

theorem checkArity_raises {n : Nat} {o : Operands} (h : p .arityMismatch = true) :
    RaisesOnly p (checkArity n o) := .of_error (require_obeys h).errors

theorem regOf_raises (h : p .invalidRegister = true) : RaisesOnly p (regOf o) :=
  .of_error fun _ he => (regOf_eq_error.1 he).2 ▸ h

theorem vregOf_raises (h : p .invalidOperand = true) : RaisesOnly p (vregOf o) :=
  .of_error fun _ he => (vregOf_eq_error.1 he).2 ▸ h

theorem State.targetOf_raises (h : p .unknownLabel = true) : RaisesOnly p (s.targetOf o) :=
  .of_error fun _ he => (State.targetOf_eq_error.1 he).2 ▸ h

theorem State.valRl10_raises (hr : p .invalidRegister = true) (ho : p .invalidOperand = true) :
    RaisesOnly p (s.valRl10 o) :=
  .of_register_or_operand hr ho fun _ he => (State.valRl10_eq_error.1 he).2

theorem State.valRl_raises (hr : p .invalidRegister = true) (ho : p .invalidOperand = true) :
    RaisesOnly p (s.valRl o) :=
  .of_register_or_operand hr ho fun _ he => (State.valRl_eq_error.1 he).2

theorem State.ea_raises (hr : p .invalidRegister = true) (ho : p .invalidOperand = true) :
    RaisesOnly p (s.ea o) :=
  .of_register_or_operand hr ho fun _ he => (State.ea_eq_error.1 he).2

/-- An access raises InvalidAddress only, and nothing in range (20_memory.md R62). -/
theorem State.memRead_raises (h : a < s.memLen ∨ p .invalidAddress = true) :
    RaisesOnly p (s.memRead a) := by
  by_cases ha : a < s.memLen
  · rw [State.memRead_of_lt ha]
    exact .ok trivial
  · rw [State.memRead_of_le (Nat.not_lt.1 ha)]
    exact .error (h.resolve_left ha)

theorem State.memRead4_raises (h : p .invalidAddress = true) : RaisesOnly p (s.memRead4 a) := by
  rcases Nat.lt_or_ge (a + 3) s.memLen with ha | ha
  · rw [State.memRead4_of_lt ha]
    exact .ok trivial
  · rw [State.memRead4_of_le ha]
    exact .error h

/-- What a store leaves alone: the size of the memory and the error register. -/
structure StoreKept (s t : State) : Prop where
  memLen : t.memLen = s.memLen
  errCode : t.errCode = s.errCode

theorem StoreKept.lt_memLen {t : State} (h : StoreKept s t) (ha : a < s.memLen) : a < t.memLen :=
  h.memLen.symm ▸ ha

theorem State.memWrite_obeys (v : Binary64) (h : a < s.memLen ∨ p .invalidAddress = true) :
    Obeys p (StoreKept s) (s.memWrite a v) := by
  by_cases ha : a < s.memLen
  · rw [State.memWrite_of_lt v ha]
    exact .ok ⟨rfl, rfl⟩
  · rw [State.memWrite_of_le v (Nat.not_lt.1 ha)]
    exact .error (h.resolve_left ha)

theorem State.memWrite4_obeys (l : Lanes) (h : p .invalidAddress = true) :
    Obeys p (StoreKept s) (s.memWrite4 a l) := by
  rcases Nat.lt_or_ge (a + 3) s.memLen with ha | ha
  · rw [State.memWrite4_of_lt l ha]
    exact .ok ⟨rfl, rfl⟩
  · rw [State.memWrite4_of_le l ha]
    exact .error h

theorem State.pushCell_obeys (v : Binary64) (h : s.sp - 1 < s.memLen ∨ p .invalidAddress = true) :
    Obeys p (StoreKept s) (s.pushCell v) :=
  (State.memWrite_obeys v h).bind fun _ ht => .ok ⟨ht.memLen, ht.errCode⟩

theorem State.valAny_raises (hr : p .invalidRegister = true) (ho : p .invalidOperand = true)
    (ha : p .invalidAddress = true) : RaisesOnly p (s.valAny o) := by
  unfold State.valAny
  split
  · exact (State.ea_raises hr ho).bind fun _ _ => State.memRead_raises (.inr ha)
  · exact State.valRl_raises hr ho

theorem State.returnTarget_raises {v : Binary64} (h : p .invalidReturnAddress = true) :
    RaisesOnly p (s.returnTarget v) := by
  unfold State.returnTarget
  split
  · split
    · exact .ok trivial
    · exact .error h
  · exact .error h

theorem matSizeOf_raises {v : Binary64} (h : p .invalidOperand = true) :
    RaisesOnly p (matSizeOf v) := .of_error fun e he => by
  have hno : ∀ n, matSizeOf v ≠ .ok n := fun n hn => nomatch hn.symm.trans he
  rw [matSizeOf_eq_error hno] at he
  exact Except.error.inj he ▸ h

end

/-! ### The meanings -/

section

variable {p : Err → Bool} {o : Operands} {s : State}

/-- The checks that the two-operand forms share (41_arithmetic.md R170). -/
theorem twoOperands_completes {rest : Reg → Binary64 → Except Err State}
    (ha : p .arityMismatch = true) (hr : p .invalidRegister = true)
    (ho : p .invalidOperand = true) (hrest : ∀ d v, CompletesFrom s p (rest d v)) :
    CompletesFrom s p (checkArity 2 o >>= fun _ => regOf o.op0 >>= fun d =>
      s.valRl10 o.op1 >>= fun v => rest d v) :=
  (checkArity_raises ha).bind fun _ _ => (regOf_raises hr).bind fun d _ =>
    (State.valRl10_raises hr ho).bind fun v _ => hrest d v

theorem unaryArith_completes (f : Binary64 → Binary64) (ha : p .arityMismatch = true)
    (hr : p .invalidRegister = true) : CompletesFrom s p (unaryArith f o s) :=
  (checkArity_raises ha).bind fun _ _ => (regOf_raises hr).bind fun _ _ => .ok rfl

theorem condJump_completes (c : Bool) (ha : p .arityMismatch = true)
    (hl : p .unknownLabel = true) : CompletesFrom s p (condJump c o s) :=
  (checkArity_raises ha).bind fun _ _ => by
    cases c with
    | false => exact .ok rfl
    | true => exact (State.targetOf_raises hl).bind fun _ _ => .ok rfl

/-- The checks that the lane-wise forms share (45_simd.md R270). -/
theorem threeVectors_completes {rest : VReg → VReg → VReg → Except Err State}
    (ha : p .arityMismatch = true) (ho : p .invalidOperand = true)
    (hrest : ∀ d a b, CompletesFrom s p (rest d a b)) :
    CompletesFrom s p (checkArity 3 o >>= fun _ => vregOf o.op0 >>= fun d =>
      vregOf o.op1 >>= fun a => vregOf o.op2 >>= fun b => rest d a b) :=
  (checkArity_raises ha).bind fun _ _ => (vregOf_raises ho).bind fun d _ =>
    (vregOf_raises ho).bind fun a _ => (vregOf_raises ho).bind fun b _ => hrest d a b

/-- Behind a store nothing fails: the cursor advances. -/
theorem store_advance_completes {x : Except Err State} (hx : Obeys p (StoreKept s) x) :
    CompletesFrom s p (x >>= fun t => .ok t.advance) :=
  hx.bind fun _ ht => .ok ht.errCode

theorem mov_completes (ha : p .arityMismatch = true) (hr : p .invalidRegister = true)
    (ho : p .invalidOperand = true) (hm : p .invalidAddress = true) :
    CompletesFrom s p (checkArity 2 o >>= fun _ =>
      if o.op0.isMem then movToMemory o s else movToRegister o s) :=
  (checkArity_raises ha).bind fun _ _ => by
    split
    · exact (State.ea_raises hr ho).bind fun _ _ => (require_obeys hm).bind fun _ _ =>
        (State.valAny_raises hr ho hm).bind fun _ _ =>
        store_advance_completes (State.memWrite_obeys _ (.inr hm))
    · exact (regOf_raises hr).bind fun _ _ => (State.valAny_raises hr ho hm).bind fun _ _ => .ok rfl

end

/-- Each instruction is a computation held to the errors that `raisedBy` lists for it. -/
theorem exec_completes (i : Instr) (s : State) :
    ∃ r, exec i s = attempt s r ∧ CompletesFrom s (raisedBy · i) r := by
  cases i with
  | add o | sub o | mul o | and o | or o | xor o | cmp o =>
    exact ⟨_, rfl, twoOperands_completes rfl rfl rfl fun _ _ => .ok rfl⟩
  | inc o | dec o | not o => exact ⟨_, rfl, unaryArith_completes _ rfl rfl⟩
  | div o =>
    exact ⟨_, rfl, twoOperands_completes rfl rfl rfl fun _ _ =>
      (require_obeys rfl).bind fun _ _ => .ok rfl⟩
  | mov o => exact ⟨_, rfl, mov_completes rfl rfl rfl rfl⟩
  | load o =>
    exact ⟨_, rfl,
      (checkArity_raises rfl).bind fun _ _ => (regOf_raises rfl).bind fun _ _ =>
      (State.ea_raises rfl rfl).bind fun _ _ => (State.memRead_raises (.inr rfl)).bind fun _ _ =>
      (require_obeys rfl).bind fun _ _ => .ok rfl⟩
  | store o =>
    exact ⟨_, rfl,
      (checkArity_raises rfl).bind fun _ _ => (State.valRl_raises rfl rfl).bind fun _ _ =>
      (State.ea_raises rfl rfl).bind fun _ _ =>
      store_advance_completes (State.memWrite_obeys _ (.inr rfl))⟩
  | push o =>
    exact ⟨_, rfl,
      (checkArity_raises rfl).bind fun _ _ => (State.valRl_raises rfl rfl).bind fun _ _ =>
      (require_obeys rfl).bind fun _ _ =>
      store_advance_completes (State.pushCell_obeys _ (.inr rfl))⟩
  | pop o =>
    exact ⟨_, rfl,
      (checkArity_raises rfl).bind fun _ _ => (regOf_raises rfl).bind fun _ _ =>
      (require_decide_obeys rfl).bind fun _ hsp =>
      (State.memRead_raises (.inl hsp)).bind fun _ _ => .ok rfl⟩
  | dup o =>
    exact ⟨_, rfl,
      (checkArity_raises rfl).bind fun _ _ => (require_decide_obeys rfl).bind fun _ hsp =>
      (require_obeys rfl).bind fun _ _ => (State.memRead_raises (.inl hsp)).bind fun _ _ =>
      store_advance_completes (State.pushCell_obeys _ (.inl (by omega)))⟩
  | swap o =>
    exact ⟨_, rfl,
      (checkArity_raises rfl).bind fun _ _ => (require_decide_obeys rfl).bind fun _ hsp =>
      (State.memRead_raises (.inl (by omega))).bind fun _ _ =>
      (State.memRead_raises (.inl (by omega))).bind fun _ _ =>
      (State.memWrite_obeys _ (.inl (by omega))).bind fun t ht =>
      (State.memWrite_obeys _ (.inl (ht.lt_memLen (by omega)))).bind fun u hu =>
      .ok (hu.errCode.trans ht.errCode)⟩
  | rot o =>
    exact ⟨_, rfl,
      (checkArity_raises rfl).bind fun _ _ => (require_decide_obeys rfl).bind fun _ hsp =>
      (State.memRead_raises (.inl (by omega))).bind fun _ _ =>
      (State.memRead_raises (.inl (by omega))).bind fun _ _ =>
      (State.memRead_raises (.inl (by omega))).bind fun _ _ =>
      (State.memWrite_obeys _ (.inl (by omega))).bind fun t ht =>
      (State.memWrite_obeys _ (.inl (ht.lt_memLen (by omega)))).bind fun u hu =>
      (State.memWrite_obeys _ (.inl (hu.lt_memLen (ht.lt_memLen (by omega))))).bind fun w hw =>
      .ok (hw.errCode.trans (hu.errCode.trans ht.errCode))⟩
  | jmp o | je o | jz o | jne o | jnz o | jl o | jg o | jle o | jge o =>
    exact ⟨_, rfl, condJump_completes _ rfl rfl⟩
  | call o =>
    exact ⟨_, rfl,
      (checkArity_raises rfl).bind fun _ _ => (require_obeys rfl).bind fun _ _ =>
      (State.targetOf_raises rfl).bind fun _ _ =>
      (State.pushCell_obeys _ (.inr rfl)).bind fun _ ht => .ok ht.errCode⟩
  | ret o =>
    exact ⟨_, rfl,
      (checkArity_raises rfl).bind fun _ _ => (require_decide_obeys rfl).bind fun _ hsp =>
      (State.memRead_raises (.inl hsp)).bind fun _ _ =>
      (State.returnTarget_raises rfl).bind fun _ _ => .ok rfl⟩
  | vadd o | vmul o => exact ⟨_, rfl, threeVectors_completes rfl rfl fun _ _ _ => .ok rfl⟩
  | vdiv o =>
    exact ⟨_, rfl, threeVectors_completes rfl rfl fun _ _ _ =>
      (require_obeys rfl).bind fun _ _ => .ok rfl⟩
  | vload o =>
    exact ⟨_, rfl,
      (checkArity_raises rfl).bind fun _ _ => (vregOf_raises rfl).bind fun _ _ =>
      (State.ea_raises rfl rfl).bind fun _ _ => (State.memRead4_raises rfl).bind fun _ _ =>
      (require_obeys rfl).bind fun _ _ => .ok rfl⟩
  | vstore o =>
    exact ⟨_, rfl,
      (checkArity_raises rfl).bind fun _ _ => (vregOf_raises rfl).bind fun _ _ =>
      (State.ea_raises rfl rfl).bind fun _ _ =>
      store_advance_completes (State.memWrite4_obeys _ rfl)⟩
  | setmatsize o =>
    exact ⟨_, rfl,
      (checkArity_raises rfl).bind fun _ _ => (State.valRl_raises rfl rfl).bind fun _ _ =>
      (matSizeOf_raises rfl).bind fun _ _ => .ok rfl⟩
  | blank => exact ⟨.ok s.advance, rfl, .ok rfl⟩
  | label id => exact ⟨.ok s.advance, rfl, .ok rfl⟩
  | halt => exact ⟨.ok s.complete, rfl, .ok rfl⟩

/-- Settles O17: the error a meaning enters is one that its computation raised, and a computation that
completes records none. -/
theorem eachErrorHasItsRaisers : Obligations.EachErrorHasItsRaisers := by
  intro i s t e hs h he
  obtain ⟨r, hexec, hr⟩ := exec_completes i s
  rw [hexec, attempt_eq_next] at h
  rcases h with hok | ⟨f, herr, rfl⟩
  · rw [hr.value t hok, hs] at he
    cases he
  · cases he
    exact hr.errors _ herr

end Sys2Proof.Machine
end

section
/-! Words and values that the spec writes out: the statement words of its programs, and the state after
`reset()` with the step and the tick from there. -/

namespace Sys2Proof.Machine

/-! ### The words of the spec's programs -/

/-- A word is read back as the instruction that it encodes. -/
theorem decode_of_eq_encode {w : StmtWord} {i : Instr} (hwf : i.WellFormed = true)
    (hw : w = encode i) : decode w = .ok i :=
  hw ▸ decodeOfEncodeIsTheInstruction i hwf

/-- Settles O4: each word is the encoding of the instruction that its line spells. -/
theorem wordsOfTheSpecsProgramsDecode : Obligations.WordsOfTheSpecsProgramsDecode :=
  ⟨decode_of_eq_encode rfl rfl, decode_of_eq_encode rfl rfl, decode_of_eq_encode rfl rfl,
    decode_of_eq_encode rfl rfl, decode_of_eq_encode rfl rfl, decode_of_eq_encode rfl rfl,
    decode_of_eq_encode rfl rfl, decode_of_eq_encode rfl rfl, decode_of_eq_encode rfl rfl⟩

/-! ### The state after reset -/

/-- `MEMLEN - 1` fits the register (10_state.md R44). -/
theorem State.sp_hostReset {s : State} (h : s.params.Legal) : s.hostReset.sp = s.memLen - 1 := by
  obtain ⟨-, hlt, -⟩ := h
  exact (BitVec.toNat_ofNat _ _).trans (Nat.mod_eq_of_lt (Nat.lt_of_le_of_lt (Nat.sub_le _ 1) hlt))

/-- The program is empty after reset, so nothing is fetched (70_reset_and_hazards.md R341). -/
theorem stepWith_hostReset (s : State) {hook : Nat → Bool} (h : hook 0 = false) :
    stepWith hook s.hostReset = .next { s.hostReset with runState := .stoppedSuccess } :=
  stepWith_of_fetch_none rfl h (State.fetch_eq_none (Nat.zero_le _))

/-- Settles O56: the values are those of `State.resetOf`; SP needs the bound of MEMLEN, and the step and
the tick go by the empty program and the run state. -/
theorem resetLeavesTheStatedValues : Obligations.ResetLeavesTheStatedValues := by
  intro s hlegal
  have hregs : ∀ r, r ≠ .sp → s.hostReset.reg r = 0 := fun r hr => by
    cases r with
    | sp => exact absurd rfl hr
    | _ => rfl
  have hvecs : ∀ r, s.hostReset.vec r = Lanes.zero := fun r => by cases r <;> rfl
  exact ⟨hregs, State.sp_hostReset hlegal, rfl, rfl, rfl, hvecs, fun _ => rfl, rfl, rfl, rfl, rfl,
    rfl, rfl, fun _ => rfl, rfl, rfl, rfl, rfl, rfl, rfl, fun _ => stepWith_hostReset s,
    fun _ => State.tick_of_not_running RunState.noConfusion⟩

end Sys2Proof.Machine
end
